-- ==== Sys2Proof/Word.lean ====
section
/-! DEFINITION. The word types of the block: what the spec treats as bits, and nothing else
(`00_scope.md` R10, R11; `30_encoding.md` R71, R76). Ring indices, counts and lengths are natural
numbers held to the ranges of R10. -/

namespace Sys2Proof

/-- A stored byte, PUSH's operand, the NMEA checksum (R10). -/
abbrev Byte := BitVec 8

/-- A command word of the host's stream (R71). -/
abbrev CommandWord := BitVec 10

/-- A CRC-24Q value (R10). -/
abbrev Crc := BitVec 24

/-- The header word of NEXT_MESSAGE's response (R76). -/
abbrev HeaderWord := BitVec 24

end Sys2Proof
end

