-- ==== Sys2Proof/Syntax.lean ====
section
/-! DEFINITION. The instructions of the block: one constructor for each row of
`opcode_table.json`, and the records their operands use. -/

namespace Sys2Proof

/-- The protocol of a descriptor or an output message (`10_state.md` R31). Only the sentinel
carries `unknown`. Code 3 is reserved and has no constructor. -/
inductive Protocol where
  | unknown
  | rtcm3
  | nmea
  deriving DecidableEq, Repr

/-- The reason codes (`10_state.md` R33). Codes 6 and 7 are reserved and have no constructor. -/
inductive Reason where
  | none
  | invalidLength
  | crcFail
  | tooLong
  | checksumFail
  | noMessage
  deriving DecidableEq, Repr

/-- A message descriptor (`10_state.md` R29): where a framed message lies and how it fared, not its bytes. -/
structure Descriptor where
  protocol : Protocol
  /-- The absolute ring index of the frame's first byte (R29, D26). -/
  start : Nat
  /-- The number of framed bytes, 0 for the two framing errors. -/
  length : Nat
  valid : Bool
  reason : Reason
  deriving DecidableEq, Repr

/-- One item between the quotes of a PUSHS string (`30_encoding.md` R80): a character that stands
for its own byte, or one of the four escapes. -/
inductive StringPart where
  | char (c : Byte)
  /-- the escape for byte 0x0D -/
  | escR
  /-- the escape for byte 0x0A -/
  | escN
  /-- the escape for byte 0x5C -/
  | escBackslash
  /-- the escape with two hex digits -/
  | escHex (b : Byte)
  deriving DecidableEq, Repr

/-- The instructions: the four commands of `44_interface.md`, the two pseudo-commands of
`30_encoding.md` R80 and the eighteen internal operations of R77.
`ignored` is `cmd[7:0]` of a command that ignores it (R73), kept so that no bit of a word is lost. -/
inductive Instr where
  -- commands
  | push (b : Byte)
  | hasMessage (ignored : Byte)
  | nextMessage (ignored : Byte)
  | reset (ignored : Byte)
  -- pseudo-commands
  | pushs (text : List StringPart)
  | pushb (bytes : List Byte)
  -- ring buffer
  | rbPush (b : Byte)
  | rbReadAt (offset : Nat)
  | rbAdvanceRead (n : Nat)
  | rbSetRead (p : Nat)
  | rbSetAvailable (n : Nat)
  -- validators
  | crcTableEntry (i : Byte)
  | crc24q (p n : Nat)
  | rtcm3Validate (p : Nat)
  | nmeaHexval (c : Byte)
  | nmeaXor (p a b : Nat)
  | nmeaValidate (p len : Nat)
  -- frame scanner
  | rtcm3Detect (pos rem : Nat)
  | nmeaDetect (pos rem : Nat)
  | scanPass
  -- message queue
  | qEnqueue (d : Descriptor)
  | qEvict
  | qDequeue
  | qHas
  deriving DecidableEq, Repr

end Sys2Proof
end

