-- ==== Sys2Proof/Decode.lean ====
section
/-! DEFINITION. Decoding and encoding of command words (`30_encoding.md` R70 to R74, R77, R78, R80). -/

namespace Sys2Proof

/-- `cmd[9:8]`, the operation select (R71). -/
def opField (w : CommandWord) : BitVec 2 := w.extractLsb' 8 2

/-- `cmd[7:0]`, the byte to ingest or the ignored byte (R71). -/
def dataField (w : CommandWord) : Byte := w.extractLsb' 0 8

/-- The opcode map (R72). It is total: every one of the 1024 words selects exactly one command (R74). -/
def decode (w : CommandWord) : Instr :=
  if opField w = 0b00#2 then .push (dataField w)
  else if opField w = 0b01#2 then .hasMessage (dataField w)
  else if opField w = 0b10#2 then .nextMessage (dataField w)
  else .reset (dataField w)

/-- Why a number is no command word. -/
inductive DecodeRefusal where
  /-- Raised by `decodeNumber`: the number has a bit above bit 9, and every command word is exactly
  10 bits wide (R78). Safe: no word of the interface has such a bit. -/
  | widerThanTenBits
  deriving DecidableEq, Repr

/-- The decoder on any bits at all, read as one number with bit 0 the least significant. -/
def decodeNumber (w : Nat) : Except DecodeRefusal Instr :=
  if w < 1024 then .ok (decode (BitVec.ofNat 10 w)) else .error .widerThanTenBits

/-- What the decoder reads from a table row's bits. Every command is one word of 10 bits, so the
row's own width `nbits` says nothing more (R78). -/
def decodeTableWord (_nbits w : Nat) : Option Instr :=
  match decodeNumber w with
  | .ok i => some i
  | .error _ => none

/-- A command word from its two fields (R71). -/
def commandWord (op : BitVec 2) (data : Byte) : CommandWord := op ++ data

/-- The byte an item of a string stands for (R15, R80). -/
def StringPart.byte : StringPart → Byte
  | .char c => c
  | .escR => 0x0D#8
  | .escN => 0x0A#8
  | .escBackslash => 0x5C#8
  | .escHex b => b

/-- The words of an instruction (R72, R80): one for a command, one PUSH a byte for a
pseudo-command, none at all for an internal operation, which has no command encoding (R77). -/
def encode : Instr → Option (List CommandWord)
  | .push b => some [commandWord 0b00#2 b]
  | .hasMessage ignored => some [commandWord 0b01#2 ignored]
  | .nextMessage ignored => some [commandWord 0b10#2 ignored]
  | .reset ignored => some [commandWord 0b11#2 ignored]
  | .pushs text => some (text.map fun t => commandWord 0b00#2 t.byte)
  | .pushb bytes => some (bytes.map fun b => commandWord 0b00#2 b)
  | .rbPush _ | .rbReadAt _ | .rbAdvanceRead _ | .rbSetRead _ | .rbSetAvailable _ => none
  | .crcTableEntry _ | .crc24q _ _ | .rtcm3Validate _ => none
  | .nmeaHexval _ | .nmeaXor _ _ _ | .nmeaValidate _ _ => none
  | .rtcm3Detect _ _ | .nmeaDetect _ _ | .scanPass => none
  | .qEnqueue _ | .qEvict | .qDequeue | .qHas => none

/-- The commands an instruction stands for in the stream: a command itself, a pseudo-command one
PUSH a byte (R80), an internal operation none (R77). -/
def expand : Instr → List Instr
  | .push b => [.push b]
  | .hasMessage ignored => [.hasMessage ignored]
  | .nextMessage ignored => [.nextMessage ignored]
  | .reset ignored => [.reset ignored]
  | .pushs text => text.map fun t => .push t.byte
  | .pushb bytes => bytes.map .push
  | .rbPush _ | .rbReadAt _ | .rbAdvanceRead _ | .rbSetRead _ | .rbSetAvailable _ => []
  | .crcTableEntry _ | .crc24q _ _ | .rtcm3Validate _ => []
  | .nmeaHexval _ | .nmeaXor _ _ _ | .nmeaValidate _ _ => []
  | .rtcm3Detect _ _ | .nmeaDetect _ _ | .scanPass => []
  | .qEnqueue _ | .qEvict | .qDequeue | .qHas => []

end Sys2Proof
end

