-- ==== Sys2Proof/Config.lean ====
section
/-! DEFINITION. What an implementation of the block fixes: the two open parameters of
`00_scope.md` R7 and R8, and the free value of the power-on storage contents
(`70_reset_and_hazards.md` R260). -/

namespace Sys2Proof.Config

/-- The parameters of a built block (R7, R8, R38; `92_eei_decisions.md` D1, D2): the spec leaves
both OPEN as arguments of a model, under the two bounds that the proof fields carry. No command
reads or writes them.
DESIGN CHOICE: they travel in `State` so that a statement about every state is one about every
`N` and `Q` (log entry 1). -/
structure Params where
  /-- `BUFFER_SIZE`, the ring capacity in bytes. -/
  N : Nat
  /-- `MAX_MESSAGES`, the queue capacity in descriptors. -/
  Q : Nat
  N_pos : 1 ≤ N
  Q_pos : 1 ≤ Q
  deriving DecidableEq, Repr

/-- What storage byte `i` holds at power-on: unspecified, a free draw (R21, R260;
`93_implementation_defined.md` U2). The constant has no body, so nothing can be proved of a value of it.
DESIGN CHOICE: one draw for each index, since RESET leaves `S` unchanged (log entry 2); safe. -/
opaque powerOnByte : Nat → Byte

end Sys2Proof.Config
end

