-- ==== Sys2Proof/Machine/State.lean ====
section
/-! DEFINITION. The state of the block (`10_state.md`), plain data throughout, the reasons a step
can stop, and the state after reset. -/

namespace Sys2Proof.Machine

/-- The ring storage `S` (`10_state.md` R21): the bytes written since power-on, one cell an index,
in the canonical form `Memory.wf`. An index with no cell holds its power-on contents. -/
abbrev Memory := List Host.Cell

/-- The record handed to the host (`10_state.md` R34). -/
structure OutputMessage where
  protocol : Protocol
  length : Nat
  valid : Bool
  reason : Reason
  data : List Byte
  deriving DecidableEq, Repr

/-- A detector's verdict (`42_frame_scanner.md` R150). -/
inductive Verdict where
  | skip
  | incomplete
  | emit (d : Descriptor) (adv : Nat)
  deriving DecidableEq, Repr

/-- What the host issues (`30_encoding.md` R70). -/
inductive HostInput where
  /-- One command word. -/
  | command (w : CommandWord)
  /-- Two commands issued without waiting for the first to complete, which the host must not do
  (`20_memory.md` R62; `70_reset_and_hazards.md` R274). -/
  | overlapping (w₁ w₂ : CommandWord)
  deriving DecidableEq, Repr

/-- A command's response (`30_encoding.md` R75). RESET gives none. -/
inductive Response where
  /-- The one bit of PUSH and HAS_MESSAGE. -/
  | msgReady (ready : Bool)
  /-- The header word of NEXT_MESSAGE and the data bytes after it. -/
  | message (header : HeaderWord) (data : List Byte)
  deriving DecidableEq, Repr

/-- What an internal operation returns when it is run on its own (`00_scope.md` R14). -/
inductive Returned where
  /-- No operation with a result has run. -/
  | nothing
  | byte (b : Byte)
  | crc (c : Crc)
  | bit (b : Bool)
  | digit (d : Option (BitVec 4))
  | verdict (v : Verdict)
  | message (m : OutputMessage)
  deriving DecidableEq, Repr

/-- The state. The five fields from `ring` to `queue` are the spec's tuple (`10_state.md` R20); `config`
holds the two parameters; the last three are the model's own, for the host's side of the interface
and for the results of internal operations (log entries 3, 4 and 5). -/
structure State where
  /-- `N` and `Q` (R38): no operation writes them. -/
  config : Config.Params
  /-- `S` (R21). -/
  ring : Memory
  /-- `write_pos` (R22). -/
  writePos : Nat
  /-- `read_pos` (R23). -/
  readPos : Nat
  /-- The count of live bytes (R24). -/
  available : Nat
  /-- The live descriptors, oldest first (R28). -/
  queue : List Descriptor
  /-- The host's inputs not yet taken, oldest first. -/
  inbox : List HostInput
  /-- The responses given so far, oldest first. -/
  responses : List Response
  /-- What the last internal operation run on its own returned. -/
  returned : Returned
  deriving DecidableEq, Repr

/-- The block raises no fault: it has no exception, trap, fault or halt (`60_exceptions.md` R240),
so no reason exists. -/
inductive Fault where
  deriving DecidableEq, Repr

/-- The reasons the model has for giving no meaning. -/
inductive Refusal where
  /-- Raised by an arm of `exec` whose instruction has no meaning yet. Safe. No arm raises it. -/
  | notModelled (mnemonic : String)
  /-- Raised by `step` on two overlapping commands (`20_memory.md` R62;
  `93_implementation_defined.md` U5). Safe: the host is bound not to do it. -/
  | overlappingCommands
  /-- Raised by RB_READ_AT with `offset >= available` (`40_ring_buffer.md` R102; U3). Safe: no
  command makes the call. -/
  | readAtOutsideLive
  /-- Raised by RB_ADVANCE_READ with `n > available` (`40_ring_buffer.md` R104; U4). Safe: no
  command makes the call. -/
  | advanceBeyondLive
  /-- Raised by Q_EVICT on an empty queue (`43_message_queue.md` R192, its `require`). Safe: only
  Q_ENQUEUE on a full queue makes the call. -/
  | evictFromEmptyQueue
  /-- Raised by RB_SET_READ, and by Q_ENQUEUE for its descriptor's `start`, on an index outside
  `[0, N)` (`00_scope.md` R11; `40_ring_buffer.md` R106; `10_state.md` R29). Safe: no command
  makes the call (log entry 8). -/
  | ringIndexOutOfRange
  /-- Raised by RB_SET_AVAILABLE on a count outside `[0, N]` (`00_scope.md` R11;
  `40_ring_buffer.md` R107). Safe: no command makes the call (log entry 8). -/
  | countOutOfRange
  deriving DecidableEq, Repr

/-- What stands at the head of the host's stream. -/
inductive Fetched where
  /-- No command waits: the block does nothing (`44_interface.md` R220). -/
  | idle
  /-- Two commands overlap. -/
  | overlap
  /-- A command word, and the state with the word taken off the stream. -/
  | command (w : CommandWord) (s : State)
  deriving DecidableEq, Repr

/-- The state after power-on of a block built with the parameters `p` (`70_reset_and_hazards.md`
R260; `10_state.md` R41): the three cursors 0, the queue empty, no byte of `S` written. -/
def State.powerOn (p : Config.Params) : State where
  config := p
  ring := []
  writePos := 0
  readPos := 0
  available := 0
  queue := []
  inbox := []
  responses := []
  returned := .nothing

/-- The machine right after reset. The spec leaves `N` and `Q` open; the host's interface asks for
one state.
DESIGN CHOICE: `N` is 1029, the least ring that can frame every legal RTCM3 frame
(`70_reset_and_hazards.md` R266), and `Q` is 8 (log entry 1); unsafe for a statement about this one
state, so statements are about every state, and about `State.powerOn p` for every `p`. -/
def State.reset : State :=
  State.powerOn { N := 1029, Q := 8, N_pos := by decide, Q_pos := by decide }

end Sys2Proof.Machine
end

