-- ==== Sys2Proof/Machine/Ops.lean ====
section
/-! DEFINITION. The named operations over the storage, the registers and the host's streams. The
block takes no exception and returns from none (`60_exceptions.md` R240, R241): there is no such
operation to write. -/

namespace Sys2Proof.Machine

/-! ## The storage list -/

/-- The byte written at an index, if one was. -/
def Memory.find : Memory → Nat → Option Byte
  | [], _ => none
  | (k, b) :: rest, a => if k = a then some b else Memory.find rest a

/-- Store a byte, keeping the indices in rising order. -/
def Memory.store : Memory → Nat → Byte → Memory
  | [], a, v => [(a, v)]
  | (k, b) :: rest, a, v =>
    if a < k then (a, v) :: (k, b) :: rest
    else if a = k then (a, v) :: rest
    else (k, b) :: Memory.store rest a v

/-- The canonical form: indices strictly rising, each in `[0, n)`. An unlisted index has no
written byte, so no entry can equal what it reads as. -/
abbrev Memory.wf (n : Nat) (m : Memory) : Prop :=
  m.Pairwise (fun x y => x.1 < y.1) ∧ ∀ c ∈ m, c.1 < n

/-! ## Ring index arithmetic (`00_scope.md` R13) -/

/-- `add_mod(i, k)`. -/
def State.addMod (s : State) (i k : Nat) : Nat := (i + k) % s.config.N

/-- `dist_mod(i, j)`, the least non-negative residue of `j - i` modulo `N`. -/
def State.distMod (s : State) (i j : Nat) : Nat :=
  (j + (s.config.N - i % s.config.N)) % s.config.N

/-! ## One update for each field (`reg <- v` of R12) -/

def State.setRing (s : State) (m : Memory) : State := { s with ring := m }
def State.setWritePos (s : State) (p : Nat) : State := { s with writePos := p }
def State.setReadPos (s : State) (p : Nat) : State := { s with readPos := p }
def State.setAvailable (s : State) (n : Nat) : State := { s with available := n }
def State.setQueue (s : State) (q : List Descriptor) : State := { s with queue := q }
def State.setInbox (s : State) (l : List HostInput) : State := { s with inbox := l }

/-- Give the host a response (`30_encoding.md` R75). -/
def State.respond (s : State) (r : Response) : State := { s with responses := s.responses ++ [r] }

/-- `return` of an internal operation that is run on its own (`00_scope.md` R14). -/
def State.returning (s : State) (r : Returned) : State := { s with returned := r }

/-! ## Storage access, one byte wide (`20_memory.md` R52) -/

/-- `S[a]`, `MemRead(a, 1)`: the index is reduced modulo `N` first (`00_scope.md` R12). A byte not
written since power-on is its power-on value (`70_reset_and_hazards.md` R260). -/
def State.readByte (s : State) (a : Nat) : Byte :=
  match s.ring.find (a % s.config.N) with
  | some b => b
  | none => Config.powerOnByte (a % s.config.N)

/-- `S[a] <- v`, `MemWrite(a, 1, v)`. -/
def State.writeByte (s : State) (a : Nat) (v : Byte) : State :=
  s.setRing (s.ring.store (a % s.config.N) v)

/-- `S[add_mod(p, k)]`: the byte `k` places after index `p`. -/
def State.byteAt (s : State) (p k : Nat) : Byte := s.readByte (s.addMod p k)

/-- The bytes `S[add_mod(p, 0)] .. S[add_mod(p, n-1)]`, in that order (`20_memory.md` R53). -/
def State.span (s : State) (p n : Nat) : List Byte := (List.range n).map (s.byteAt p)

/-! ## The host's stream (`30_encoding.md` R70) -/

/-- Look at the oldest input of the host. -/
def State.fetch (s : State) : Fetched :=
  match s.inbox with
  | [] => .idle
  | .overlapping _ _ :: _ => .overlap
  | .command w :: rest => .command w (s.setInbox rest)

end Sys2Proof.Machine
end

