-- ==== Sys2Proof/Machine/Ring.lean ====
section
/-! DEFINITION. The ring buffer operations (`40_ring_buffer.md`). -/

namespace Sys2Proof.Machine

/-- RB_PUSH (R100): store at the write cursor; when the ring was full the oldest byte is dropped,
otherwise one more byte is live. -/
def State.ringPush (b : Byte) (s : State) : State :=
  let stored := (s.writeByte s.writePos b).setWritePos (s.addMod s.writePos 1)
  if s.available = s.config.N then stored.setReadPos (s.addMod s.readPos 1)
  else stored.setAvailable (s.available + 1)

/-- RB_ADVANCE_READ's effect (R104) when its precondition holds. -/
def State.advanceRead (n : Nat) (s : State) : State :=
  (s.setReadPos (s.addMod s.readPos n)).setAvailable (s.available - n)

/-- RB_PUSH(b), R100. -/
def execRbPush (b : Byte) (s : State) : Host.Outcome State Fault Refusal :=
  .next (s.ringPush b)

/-- RB_READ_AT(offset), R102: a live byte relative to the read cursor; a call outside the live
region is refused (`93_implementation_defined.md` U3). -/
def execRbReadAt (offset : Nat) (s : State) : Host.Outcome State Fault Refusal :=
  if offset < s.available then .next (s.returning (.byte (s.byteAt s.readPos offset)))
  else .refused .readAtOutsideLive

/-- RB_ADVANCE_READ(n), R104: drop `n` bytes from the oldest side; more than are live is refused (U4). -/
def execRbAdvanceRead (n : Nat) (s : State) : Host.Outcome State Fault Refusal :=
  if n ≤ s.available then .next (s.advanceRead n) else .refused .advanceBeyondLive

/-- RB_SET_READ(p), R106. `p` is a ring index in `[0, N)`, and a register is never given a value
outside its range (`00_scope.md` R11; log entry 8). -/
def execRbSetRead (p : Nat) (s : State) : Host.Outcome State Fault Refusal :=
  if p < s.config.N then .next (s.setReadPos p) else .refused .ringIndexOutOfRange

/-- RB_SET_AVAILABLE(n), R107. `n` is a count in `[0, N]` (`00_scope.md` R11; log entry 8). -/
def execRbSetAvailable (n : Nat) (s : State) : Host.Outcome State Fault Refusal :=
  if n ≤ s.config.N then .next (s.setAvailable n) else .refused .countOutOfRange

end Sys2Proof.Machine
end

