-- ==== Sys2Proof/Machine/Flags.lean ====
section
/-! DEFINITION. The values that act as flags (`10_state.md` R39), the numeric codes (R31, R33), and
the header word that carries them to the host (`30_encoding.md` R76, R81). -/

namespace Sys2Proof.Machine

/-- `msg_ready`: computed on demand, never stored (R39; `43_message_queue.md` R196). It counts
invalid descriptors as well as valid ones. -/
def State.msgReady (s : State) : Bool := decide (0 < s.queue.length)

/-- The protocol codes (R31). -/
def protocolCode : Protocol → BitVec 2
  | .unknown => 0
  | .rtcm3 => 1
  | .nmea => 2

/-- The reason codes (R33). -/
def reasonCode : Reason → BitVec 3
  | .none => 0
  | .invalidLength => 1
  | .crcFail => 2
  | .tooLong => 3
  | .checksumFail => 4
  | .noMessage => 5

/-- The header word of an output message (R76): protocol, valid, reason, seven zero bits, length.
DESIGN CHOICE (log entry 22): of a length of 2048 or more the header keeps the low 11 bits. Only an
ill-formed descriptor has one, and the spec gives no header for it: R76's field goes to 1029, and no
rule relies on truncation (`00_scope.md` R11). -/
def headerWord (m : OutputMessage) : HeaderWord :=
  protocolCode m.protocol ++ BitVec.ofBool m.valid ++ reasonCode m.reason ++ 0#7
    ++ BitVec.ofNat 11 m.length

/-- The fields a header word carries. -/
structure HeaderFields where
  protocol : Protocol
  valid : Bool
  reason : Reason
  length : Nat
  deriving DecidableEq, Repr

/-- The values the block never produces, one name each (`30_encoding.md` R81); raised by
`decodeHeader` alone, and safe. -/
inductive HeaderRefusal where
  | reservedProtocol
  | reservedReason
  | reservedBits
  | lengthOver1029
  deriving DecidableEq, Repr

/-- The protocol of a code, unless it is the reserved 3. -/
def protocolOfCode (c : BitVec 2) : Option Protocol :=
  if c = 0#2 then some .unknown
  else if c = 1#2 then some .rtcm3
  else if c = 2#2 then some .nmea
  else none

/-- The reason of a code, unless it is one of the reserved 6 and 7. -/
def reasonOfCode (c : BitVec 3) : Option Reason :=
  if c = 0#3 then some .none
  else if c = 1#3 then some .invalidLength
  else if c = 2#3 then some .crcFail
  else if c = 3#3 then some .tooLong
  else if c = 4#3 then some .checksumFail
  else if c = 5#3 then some .noMessage
  else none

/-- The decoder of responses, which refuses the reserved values (R81; D29). -/
def decodeHeader (h : HeaderWord) : Except HeaderRefusal HeaderFields :=
  match protocolOfCode (h.extractLsb' 22 2), reasonOfCode (h.extractLsb' 18 3) with
  | none, _ => .error .reservedProtocol
  | some _, none => .error .reservedReason
  | some p, some r =>
    if h.extractLsb' 11 7 ≠ 0#7 then .error .reservedBits
    else if 1029 < (h.extractLsb' 0 11).toNat then .error .lengthOver1029
    else .ok { protocol := p, valid := h.getLsbD 21, reason := r, length := (h.extractLsb' 0 11).toNat }

end Sys2Proof.Machine
end

