-- ==== Sys2Proof/Machine/Queue.lean ====
section
/-! DEFINITION. The message queue operations (`43_message_queue.md`). None of them touches the ring
registers or `S` (`40_ring_buffer.md` R108). -/

namespace Sys2Proof.Machine

/-- Q_EVICT's effect (R192): drop the oldest descriptor. -/
def State.evict (s : State) : State := s.setQueue s.queue.tail

/-- Q_ENQUEUE (R190): append, after evicting the oldest when the queue is full. -/
def State.enqueue (d : Descriptor) (s : State) : State :=
  let room := if s.queue.length = s.config.Q then s.evict else s
  room.setQueue (room.queue ++ [d])

/-- The sentinel, "no message available" (`10_state.md` R35). -/
def sentinel : OutputMessage where
  protocol := .unknown
  length := 0
  valid := false
  reason := .noMessage
  data := []

/-- The output message of a descriptor: its span is copied out of `S` now, while `valid` and
`reason` are those of the framing (R194; `70_reset_and_hazards.md` R270). -/
def State.materialise (s : State) (d : Descriptor) : OutputMessage where
  protocol := d.protocol
  length := d.length
  valid := d.valid
  reason := d.reason
  data := s.span d.start d.length

/-- Q_DEQUEUE (R194): the oldest message, or the sentinel, and the state without it. -/
def State.dequeue (s : State) : OutputMessage × State :=
  match s.queue with
  | [] => (sentinel, s)
  | d :: rest => (s.materialise d, s.setQueue rest)

/-- Q_ENQUEUE(d), R190. A descriptor's `start` is a ring index (`10_state.md` R29; log entry 8).
DESIGN CHOICE (log entry 22): every other field is taken as it stands. A descriptor that R29, R31 or
R32 says there is none of, such as a framing error with a length above 0, is queued like any other;
the spec gives no effect of such a call, and no scan pass makes one. -/
def execQEnqueue (d : Descriptor) (s : State) : Host.Outcome State Fault Refusal :=
  if d.start < s.config.N then .next (s.enqueue d) else .refused .ringIndexOutOfRange

/-- Q_EVICT(), R192, which requires a descriptor to evict. -/
def execQEvict (s : State) : Host.Outcome State Fault Refusal :=
  if 1 ≤ s.queue.length then .next s.evict else .refused .evictFromEmptyQueue

/-- Q_DEQUEUE(), R194. -/
def execQDequeue (s : State) : Host.Outcome State Fault Refusal :=
  .next (s.dequeue.2.returning (.message s.dequeue.1))

/-- Q_HAS(), R196. -/
def execQHas (s : State) : Host.Outcome State Fault Refusal :=
  .next (s.returning (.bit s.msgReady))

end Sys2Proof.Machine
end

