-- ==== Sys2Proof/Machine/Constants.lean ====
section
/-! DEFINITION. The fixed constants of `00_scope.md` R9, and the derived widths of R10. -/

namespace Sys2Proof.Machine

/-- `RTCM_PREAMBLE`. -/
abbrev rtcmPreamble : Byte := 0xD3#8

/-- `CRC_POLY`, 25 bits with bit 24 set. -/
abbrev crcPoly : BitVec 25 := 0x1864CFB#25

/-- `RTCM_MAX_PAYLOAD`. -/
abbrev rtcmMaxPayload : Nat := 1023

/-- `RTCM_OVERHEAD`: the header and CRC bytes of a frame. -/
abbrev rtcmOverhead : Nat := 6

/-- `RTCM_CRC_BYTES`. -/
abbrev rtcmCrcBytes : Nat := 3

/-- `MIN_SCAN`: a pass looks at a position only while at least this many bytes remain. -/
abbrev minScan : Nat := 6

/-- `NMEA_MAX`: the longest sentence, and the search window. -/
abbrev nmeaMax : Nat := 96

/-- `NMEA_START_1`, the dollar sign. -/
abbrev nmeaStart1 : Byte := 0x24#8

/-- `NMEA_START_2`, the exclamation mark. -/
abbrev nmeaStart2 : Byte := 0x21#8

/-- `NMEA_TERM`, the line feed. -/
abbrev nmeaTerm : Byte := 0x0A#8

/-- `NMEA_STAR`, the star before the checksum digits. -/
abbrev nmeaStar : Byte := 0x2A#8

/-- `AW`, the width of a ring index (R10). -/
def addressWidth (n : Nat) : Nat := max 1 (Nat.clog 2 n)

/-- `CW`, the width of a count of live bytes (R10). -/
def countWidth (n : Nat) : Nat := Nat.clog 2 (n + 1)

/-- The width of the queue occupancy (R10). -/
def occupancyWidth (q : Nat) : Nat := Nat.clog 2 (q + 1)

/-- The width of a descriptor: protocol, start, length, valid and reason (`10_state.md` R30). -/
def descriptorWidth (n : Nat) : Nat := 2 + addressWidth n + 11 + 1 + 3

end Sys2Proof.Machine
end

