-- ==== Sys2Proof/Machine/Operands.lean ====
section
/-! DEFINITION. How the block assembles its operands from single bytes: the byte that arrives first
is the most significant everywhere (`20_memory.md` R54). -/

namespace Sys2Proof.Machine

/-- The detection length `((b1 & 0x0F) << 8) | b2`, 12 bits (`42_frame_scanner.md` R152). -/
def detectionLength (b1 b2 : Byte) : Nat := (b1.extractLsb' 0 4 ++ b2).toNat

/-- The validation length `((b1 & 0x03) << 8) | b2`, 10 bits (`41_validators.md` R128). -/
def validationLength (b1 b2 : Byte) : Nat := (b1.extractLsb' 0 2 ++ b2).toNat

/-- A 24-bit value from three bytes, big-endian (R54). -/
def bigEndian24 (x y z : Byte) : Crc := x ++ y ++ z

/-- The three bytes of a 24-bit value, most significant first (`41_validators.md` R126). -/
def crcBytes (c : Crc) : List Byte :=
  [c.extractLsb' 16 8, c.extractLsb' 8 8, c.extractLsb' 0 8]

/-- The byte two hex digits stand for, the first the high nibble (R54). -/
def hexPair (h1 h2 : BitVec 4) : Byte := h1 ++ h2

/-- A byte that starts an NMEA candidate (`00_scope.md` R9). -/
def isNmeaStart (b : Byte) : Bool := b == nmeaStart1 || b == nmeaStart2

/-- A byte that ends the search along a line: the terminator or a new start marker
(`42_frame_scanner.md` R162; `60_exceptions.md` R244). -/
def isLineStop (b : Byte) : Bool := b == nmeaTerm || isNmeaStart b

end Sys2Proof.Machine
end

