-- ==== Sys2Proof/Machine/Validators.lean ====
section
/-! DEFINITION. The integrity validators (`41_validators.md`): pure functions of the bytes they
read and of `CRC_ROM` (R136). -/

namespace Sys2Proof.Machine

/-! ## CRC-24Q -/

/-- One shift of the working value: when bit 23 leaves, the polynomial is added (R120). -/
def crcShift (v : Crc) : Crc :=
  if v.getLsbD 23 then ((v.setWidth 25 <<< 1) ^^^ crcPoly).setWidth 24 else v <<< 1

/-- `n` shifts. -/
def crcShifts : Nat → Crc → Crc
  | 0, v => v
  | n + 1, v => crcShifts n (crcShift v)

/-- CRC_TABLE_ENTRY (R120). -/
def crcTableEntry (i : Byte) : Crc := crcShifts 8 (i.setWidth 24 <<< 16)

/-- One byte of the table-driven recurrence, most significant bit first, neither input nor output
reflected (R122, R124). -/
def crcUpdate (c : Crc) (b : Byte) : Crc := (c <<< 8) ^^^ crcRomAt (c.extractLsb' 16 8 ^^^ b)

/-- The CRC-24Q of a list of bytes: initial value 0, no final XOR (R122). -/
def crcOfBytes (bytes : List Byte) : Crc := bytes.foldl crcUpdate 0

/-- CRC24Q(p, n) (R124). -/
def State.crc24q (s : State) (p n : Nat) : Crc := crcOfBytes (s.span p n)

/-- One byte of the bitwise form (R125). -/
def crcUpdateBitwise (c : Crc) (b : Byte) : Crc := crcShifts 8 (c ^^^ (b.setWidth 24 <<< 16))

/-- The bitwise form of the CRC (R125). -/
def crcOfBytesBitwise (bytes : List Byte) : Crc := bytes.foldl crcUpdateBitwise 0

/-- The three bytes at `p`, big-endian (`20_memory.md` R54). -/
def State.receivedCrc (s : State) (p offset : Nat) : Crc :=
  bigEndian24 (s.byteAt p offset) (s.byteAt p (offset + 1)) (s.byteAt p (offset + 2))

/-- RTCM3_VALIDATE(p) (R128): the CRC of header and payload against the three bytes after them. -/
def State.rtcm3Validate (s : State) (p : Nat) : Bool :=
  let total := validationLength (s.byteAt p 1) (s.byteAt p 2) + rtcmOverhead
  s.crc24q p (total - rtcmCrcBytes) == s.receivedCrc p (total - rtcmCrcBytes)

/-! ## NMEA checksum -/

/-- NMEA_HEXVAL (R130): the value of one hex digit of either case. -/
def hexVal (c : Byte) : Option (BitVec 4) :=
  if 0x30 ≤ c.toNat ∧ c.toNat ≤ 0x39 then some (BitVec.ofNat 4 (c.toNat - 0x30))
  else if 0x41 ≤ c.toNat ∧ c.toNat ≤ 0x46 then some (BitVec.ofNat 4 (c.toNat - 0x41 + 10))
  else if 0x61 ≤ c.toNat ∧ c.toNat ≤ 0x66 then some (BitVec.ofNat 4 (c.toNat - 0x61 + 10))
  else none

/-- NMEA_XOR(p, a, b) (R132): the XOR of sentence bytes `a` to `b - 1`. -/
def State.nmeaXor (s : State) (p a b : Nat) : Byte :=
  (List.range' a (b - a)).foldl (fun x k => x ^^^ s.byteAt p k) 0

/-- The first star in `[1, len - 1)` (R134, D8). -/
def State.firstStar (s : State) (p len : Nat) : Option Nat :=
  (List.range' 1 (len - 2)).find? fun k => s.byteAt p k == nmeaStar

/-- NMEA_VALIDATE(p, len) (R134). -/
def State.nmeaValidate (s : State) (p len : Nat) : Bool :=
  match s.firstStar p len with
  | none => false
  | some star =>
    if len - 2 < star + 2 then false
    else
      match hexVal (s.byteAt p (star + 1)), hexVal (s.byteAt p (star + 2)) with
      | some h1, some h2 => s.nmeaXor p 1 star == hexPair h1 h2
      | _, _ => false

/-! ## The meanings. None of them writes any state but the model's own `returned` (R136). -/

/-- CRC_TABLE_ENTRY(i), R120. -/
def execCrcTableEntry (i : Byte) (s : State) : Host.Outcome State Fault Refusal :=
  .next (s.returning (.crc (crcTableEntry i)))

/-- CRC24Q(p, n), R124. -/
def execCrc24q (p n : Nat) (s : State) : Host.Outcome State Fault Refusal :=
  .next (s.returning (.crc (s.crc24q p n)))

/-- RTCM3_VALIDATE(p), R128. -/
def execRtcm3Validate (p : Nat) (s : State) : Host.Outcome State Fault Refusal :=
  .next (s.returning (.bit (s.rtcm3Validate p)))

/-- NMEA_HEXVAL(c), R130. -/
def execNmeaHexval (c : Byte) (s : State) : Host.Outcome State Fault Refusal :=
  .next (s.returning (.digit (hexVal c)))

/-- NMEA_XOR(p, a, b), R132. -/
def execNmeaXor (p a b : Nat) (s : State) : Host.Outcome State Fault Refusal :=
  .next (s.returning (.byte (s.nmeaXor p a b)))

/-- NMEA_VALIDATE(p, len), R134. -/
def execNmeaValidate (p len : Nat) (s : State) : Host.Outcome State Fault Refusal :=
  .next (s.returning (.bit (s.nmeaValidate p len)))

end Sys2Proof.Machine
end

