-- ==== Sys2Proof/Machine/Scanner.lean ====
section
/-! DEFINITION. The frame detectors and the scan pass (`42_frame_scanner.md`). -/

namespace Sys2Proof.Machine

/-- The descriptor of a frame that could be framed whole: valid, or invalid for the given reason. -/
def framed (protocol : Protocol) (start length : Nat) (ok : Bool) (failure : Reason) : Descriptor where
  protocol := protocol
  start := start
  length := length
  valid := ok
  reason := if ok then .none else failure

/-- The descriptor of a framing error: "complete but invalid", of length 0 (R152, R162, R168). -/
def framingError (protocol : Protocol) (start : Nat) (reason : Reason) : Descriptor where
  protocol := protocol
  start := start
  length := 0
  valid := false
  reason := reason

/-- RTCM3_DETECT(pos, rem) (R152). The length bound is checked first, then completeness, then the
CRC (`60_exceptions.md` R244). -/
def State.rtcm3Detect (s : State) (pos rem : Nat) : Verdict :=
  let payload := detectionLength (s.byteAt pos 1) (s.byteAt pos 2)
  let total := payload + rtcmOverhead
  if rtcmMaxPayload < payload then .emit (framingError .rtcm3 pos .invalidLength) 1
  else if rem < total then .incomplete
  else .emit (framed .rtcm3 pos total (s.rtcm3Validate pos) .crcFail) total

/-- The offset of the first terminator or start marker after `pos`, within the search window
(R162). -/
def State.firstLineStop (s : State) (pos rem : Nat) : Option Nat :=
  (List.range' 1 (min rem nmeaMax - 1)).find? fun k => isLineStop (s.byteAt pos k)

/-- NMEA_DETECT(pos, rem) (R162): the first terminator or start marker by position decides; a start
marker abandons the candidate (R164); with neither, a full window is too long (R166). -/
def State.nmeaDetect (s : State) (pos rem : Nat) : Verdict :=
  match s.firstLineStop pos rem with
  | some k =>
    if s.byteAt pos k = nmeaTerm then
      .emit (framed .nmea pos (k + 1) (s.nmeaValidate pos (k + 1)) .checksumFail) (k + 1)
    else .skip
  | none =>
    if nmeaMax ≤ rem then .emit (framingError .nmea pos .tooLong) 1 else .incomplete

/-- The three-way dispatch on the byte at the scan position (R156, R170): RTCM3 first, then NMEA,
and any other byte starts nothing. -/
def State.classify (s : State) (pos rem : Nat) : Verdict :=
  if s.readByte pos = rtcmPreamble then s.rtcm3Detect pos rem
  else if isNmeaStart (s.readByte pos) then s.nmeaDetect pos rem
  else .skip

/-- The loop of SCAN_PASS (R170) over the scanner's locals `(pos, rem)`, and the locals it ends
with. `fuel` bounds the iterations: each lowers `rem` (R173), so `rem` of them always suffice. -/
def scanLoop : Nat → State → Nat → Nat → State × Nat × Nat
  | 0, s, pos, rem => (s, pos, rem)
  | fuel + 1, s, pos, rem =>
    if rem < minScan then (s, pos, rem)
    else
      match s.classify pos rem with
      | .incomplete => (s, pos, rem)
      | .skip => scanLoop fuel s (s.addMod pos 1) (rem - 1)
      | .emit d adv => scanLoop fuel (s.enqueue d) (s.addMod pos adv) (rem - adv)

/-- The commit pair at the end of a pass (R170; `40_ring_buffer.md` R106, R107). -/
def State.commit (s : State) (pos rem : Nat) : State := (s.setReadPos pos).setAvailable rem

/-- SCAN_PASS() (R170): seed the locals, run the loop, commit. -/
def State.scanPass (s : State) : State :=
  let ended := scanLoop s.available s s.readPos s.available
  ended.1.commit ended.2.1 ended.2.2

/-- RTCM3_DETECT(pos, rem), R152. -/
def execRtcm3Detect (pos rem : Nat) (s : State) : Host.Outcome State Fault Refusal :=
  .next (s.returning (.verdict (s.rtcm3Detect pos rem)))

/-- NMEA_DETECT(pos, rem), R162. -/
def execNmeaDetect (pos rem : Nat) (s : State) : Host.Outcome State Fault Refusal :=
  .next (s.returning (.verdict (s.nmeaDetect pos rem)))

/-- SCAN_PASS(), R170. -/
def execScanPass (s : State) : Host.Outcome State Fault Refusal := .next s.scanPass

end Sys2Proof.Machine
end

