-- ==== Sys2Proof/Machine/Commands.lean ====
section
/-! DEFINITION. The four interface commands (`44_interface.md`) and the two pseudo-commands
(`30_encoding.md` R80). No command is privileged and none is refused (`60_exceptions.md` R250). -/

namespace Sys2Proof.Machine

/-- The response of PUSH and HAS_MESSAGE: `msg_ready` as it stands (R210, R212, R218). -/
def State.respondReady (s : State) : State := s.respond (.msgReady s.msgReady)

/-- PUSH (R210): store the byte, run one scan pass, respond. -/
def State.push (b : Byte) (s : State) : State := ((s.ringPush b).scanPass).respondReady

/-- One PUSH a byte, in order (`30_encoding.md` R80). -/
def State.pushAll (bytes : List Byte) (s : State) : State := bytes.foldl (fun t b => t.push b) s

/-- RESET (R216): the queue and the three cursors to the empty state; `S` is not erased. -/
def State.clear (s : State) : State :=
  (((s.setQueue []).setWritePos 0).setReadPos 0).setAvailable 0

/-- PUSH b, R210. -/
def execPush (b : Byte) (s : State) : Host.Outcome State Fault Refusal := .next (s.push b)

/-- HAS_MESSAGE, R212: nothing but the response. `cmd[7:0]` is ignored (R73). -/
def execHasMessage (_ignored : Byte) (s : State) : Host.Outcome State Fault Refusal :=
  .next s.respondReady

/-- NEXT_MESSAGE, R214: the header word of the oldest message, then its bytes. -/
def execNextMessage (_ignored : Byte) (s : State) : Host.Outcome State Fault Refusal :=
  .next (s.dequeue.2.respond (.message (headerWord s.dequeue.1) s.dequeue.1.data))

/-- RESET, R216: no response. -/
def execReset (_ignored : Byte) (s : State) : Host.Outcome State Fault Refusal := .next s.clear

/-- PUSHS, R80: one PUSH for each byte of the string. -/
def execPushs (text : List StringPart) (s : State) : Host.Outcome State Fault Refusal :=
  .next (s.pushAll (text.map StringPart.byte))

/-- PUSHB, R80: one PUSH for each listed byte. -/
def execPushb (bytes : List Byte) (s : State) : Host.Outcome State Fault Refusal :=
  .next (s.pushAll bytes)

end Sys2Proof.Machine
end

