-- ==== Sys2Proof/Machine/Dispatch.lean ====
section
/-! DEFINITION. The dispatch of every instruction to its meaning. -/

namespace Sys2Proof.Machine

def exec (i : Instr) (s : State) : Host.Outcome State Fault Refusal :=
  match i with
  -- the commands (`44_interface.md`)
  | .push b => Sys2Proof.Machine.execPush b s
  | .hasMessage ignored => Sys2Proof.Machine.execHasMessage ignored s
  | .nextMessage ignored => Sys2Proof.Machine.execNextMessage ignored s
  | .reset ignored => Sys2Proof.Machine.execReset ignored s
  -- the pseudo-commands (`30_encoding.md` R80)
  | .pushs text => Sys2Proof.Machine.execPushs text s
  | .pushb bytes => Sys2Proof.Machine.execPushb bytes s
  -- the ring buffer (`40_ring_buffer.md`)
  | .rbPush b => Sys2Proof.Machine.execRbPush b s
  | .rbReadAt offset => Sys2Proof.Machine.execRbReadAt offset s
  | .rbAdvanceRead n => Sys2Proof.Machine.execRbAdvanceRead n s
  | .rbSetRead p => Sys2Proof.Machine.execRbSetRead p s
  | .rbSetAvailable n => Sys2Proof.Machine.execRbSetAvailable n s
  -- the validators (`41_validators.md`)
  | .crcTableEntry e => Sys2Proof.Machine.execCrcTableEntry e s
  | .crc24q p n => Sys2Proof.Machine.execCrc24q p n s
  | .rtcm3Validate p => Sys2Proof.Machine.execRtcm3Validate p s
  | .nmeaHexval c => Sys2Proof.Machine.execNmeaHexval c s
  | .nmeaXor p a b => Sys2Proof.Machine.execNmeaXor p a b s
  | .nmeaValidate p len => Sys2Proof.Machine.execNmeaValidate p len s
  -- the frame scanner (`42_frame_scanner.md`)
  | .rtcm3Detect pos rem => Sys2Proof.Machine.execRtcm3Detect pos rem s
  | .nmeaDetect pos rem => Sys2Proof.Machine.execNmeaDetect pos rem s
  | .scanPass => Sys2Proof.Machine.execScanPass s
  -- the message queue (`43_message_queue.md`)
  | .qEnqueue d => Sys2Proof.Machine.execQEnqueue d s
  | .qEvict => Sys2Proof.Machine.execQEvict s
  | .qDequeue => Sys2Proof.Machine.execQDequeue s
  | .qHas => Sys2Proof.Machine.execQHas s

end Sys2Proof.Machine
end

