-- ==== Sys2Proof/Machine/Step.lean ====
section
/-! DEFINITION. One step of the machine: take the host's oldest command and run it
(`30_encoding.md` R70; `44_interface.md` R220). -/

namespace Sys2Proof.Machine

/-- One command, atomically (`20_memory.md` R57). With no command waiting the block does nothing
(`44_interface.md` R220; log entry 3); overlapping commands are refused (`20_memory.md` R62). -/
def step (s : State) : Host.Outcome State Fault Refusal :=
  match s.fetch with
  | .idle => .next s
  | .overlap => .refused .overlappingCommands
  | .command w t => exec (decode w) t

/-- The state with the command word of number `w` as the next input of the host. A number of more
than 10 bits is no command word (`30_encoding.md` R78), and the host cannot issue it (log entry 14). -/
def State.withFetchWord (s : State) (_nbits w : Nat) : State :=
  if w < 1024 then s.setInbox (.command (BitVec.ofNat 10 w) :: s.inbox) else s

end Sys2Proof.Machine
end

