-- ==== Sys2Proof/Machine/Assembler.lean ====
section
/-! DEFINITION. The assembler of `30_encoding.md` R79 and R80: one command a line, `;` starts a
comment, mnemonics in either case. What the two rules leave open is said in log entry 16. -/

namespace Sys2Proof.Machine

/-- Why a line is no command. -/
inductive AsmRefusal where
  | unknownMnemonic
  | badOperand
  | trailingText
  deriving DecidableEq, Repr

/-- The byte of a character that stands for itself: printable ASCII (R15). DESIGN CHOICE (log entry
16): no other character stands for a byte. -/
def charByte (c : Char) : Option Byte :=
  if 0x20 ≤ c.toNat ∧ c.toNat ≤ 0x7E then some (BitVec.ofNat 8 c.toNat) else none

/-- The value of a hex digit of the text, of either case (DESIGN CHOICE, log entry 16). -/
def hexDigit (c : Char) : Option (BitVec 4) := (charByte c).bind hexVal

/-- The byte of two hex digits of the text. -/
def hexByte (h l : Char) : Option Byte :=
  match hexDigit h, hexDigit l with
  | some x, some y => some (hexPair x y)
  | _, _ => none

/-- A blank of the text. R79 and R80 name none; which characters are blanks, and where blanks may
stand, are the model's choice (DESIGN CHOICE, log entry 16). -/
def isBlank (c : Char) : Bool := c == ' ' || c == '\t' || c == '\r'

def isDecimal (c : Char) : Bool := decide ('0'.toNat ≤ c.toNat) && decide (c.toNat ≤ '9'.toNat)

def isNameChar (c : Char) : Bool := c.isAlphanum || c == '_'

def skipBlanks (text : List Char) : List Char := text.dropWhile isBlank

/-- The value of a decimal numeral. -/
def decimalValue (digits : List Char) : Nat :=
  digits.foldl (fun v c => 10 * v + (c.toNat - '0'.toNat)) 0

/-- An `<imm8>` at the head of the text, and the text after it (R79): two hex digits after `0x`, a
character in single quotes, or a decimal number from 0 to 255.
DESIGN CHOICE (log entry 16): R79 shows in single quotes only a plain character and the escapes of
0x0D and 0x0A. Here those two are the only escapes there; a backslash alone between the quotes is
0x5C, the single quote between two others is 0x27, and the escaped backslash and the hex escape,
which R80 gives for a PUSHS string, are refused. -/
def parseImm8 : List Char → Option (Byte × List Char)
  | '0' :: 'x' :: h :: l :: rest => (hexByte h l).map fun b => (b, rest)
  | '\x27' :: '\x5c' :: 'r' :: '\x27' :: rest => some (0x0D#8, rest)
  | '\x27' :: '\x5c' :: 'n' :: '\x27' :: rest => some (0x0A#8, rest)
  | '\x27' :: c :: '\x27' :: rest => (charByte c).map fun b => (b, rest)
  | text =>
    let digits := text.takeWhile isDecimal
    if digits = [] ∨ 255 < decimalValue digits then none
    else some (BitVec.ofNat 8 (decimalValue digits), text.dropWhile isDecimal)

/-- The list of a PUSHB, separated by commas (R80); `fuel` bounds its length. DESIGN CHOICE (log
entry 16): blanks may stand before and after each comma, or none at all, and a comma that no
`<imm8>` follows is refused. -/
def parseImm8List : Nat → List Char → Option (List Byte × List Char)
  | 0, _ => none
  | fuel + 1, text =>
    match parseImm8 (skipBlanks text) with
    | none => none
    | some (b, rest) =>
      match skipBlanks rest with
      | ',' :: more => (parseImm8List fuel more).map fun (bs, last) => (b :: bs, last)
      | _ => some ([b], rest)

/-- The items of a PUSHS string up to the closing quote (R80). DESIGN CHOICE (log entries 16, 17):
any printable ASCII character but the quote and the backslash stands for itself, the semicolon
included; a backslash that begins none of the four escapes of R80 is refused; and the string may be
empty. -/
def parseString : List Char → Option (List StringPart × List Char)
  | [] => none
  | '\x22' :: rest => some ([], rest)
  | '\x5c' :: 'r' :: rest => (parseString rest).map fun (ps, last) => (.escR :: ps, last)
  | '\x5c' :: 'n' :: rest => (parseString rest).map fun (ps, last) => (.escN :: ps, last)
  | '\x5c' :: '\x5c' :: rest =>
    (parseString rest).map fun (ps, last) => (.escBackslash :: ps, last)
  | '\x5c' :: 'x' :: h :: l :: rest =>
    match hexByte h l, parseString rest with
    | some b, some (ps, last) => some (.escHex b :: ps, last)
    | _, _ => none
  | '\x5c' :: _ => none
  | c :: rest =>
    match charByte c, parseString rest with
    | some b, some (ps, last) => some (.char b :: ps, last)
    | _, _ => none

/-- Nothing but blanks or a comment may follow a command on its line (DESIGN CHOICE, log entry 16). -/
def endOfLine (i : Instr) (rest : List Char) : Except AsmRefusal (Option Instr) :=
  match skipBlanks rest with
  | [] => .ok (some i)
  | ';' :: _ => .ok (some i)
  | _ => .error .trailingText

/-- One line of assembler text: a command, or nothing on a blank or comment line. The ignored field
of a command is zero (R79). DESIGN CHOICE (log entry 16): blanks may stand at the head of the line,
after the mnemonic, and before the end of the line or its comment; the mnemonic is the longest run
of name characters, so a blank must part it from an operand that begins with one, and need not part
it from a quote. -/
def asmLine (line : List Char) : Except AsmRefusal (Option Instr) :=
  match skipBlanks line with
  | [] => .ok none
  | ';' :: _ => .ok none
  | text =>
    let name := (text.takeWhile isNameChar).map Char.toUpper
    let operands := skipBlanks (text.dropWhile isNameChar)
    if name = "PUSH".toList then
      match parseImm8 operands with
      | some (b, rest) => endOfLine (.push b) rest
      | none => .error .badOperand
    else if name = "HAS_MESSAGE".toList then endOfLine (.hasMessage 0) operands
    else if name = "NEXT_MESSAGE".toList then endOfLine (.nextMessage 0) operands
    else if name = "RESET".toList then endOfLine (.reset 0) operands
    else if name = "PUSHS".toList then
      match operands with
      | '\x22' :: body =>
        match parseString body with
        | some (parts, rest) => endOfLine (.pushs parts) rest
        | none => .error .badOperand
      | _ => .error .badOperand
    else if name = "PUSHB".toList then
      match parseImm8List operands.length operands with
      | some (bytes, rest) => endOfLine (.pushb bytes) rest
      | none => .error .badOperand
    else .error .unknownMnemonic

/-- A program text: its lines in order, blank and comment lines left out; one refused line refuses
the text (DESIGN CHOICE, log entry 16). -/
def asmProgram (lines : List (List Char)) : Except AsmRefusal (List Instr) :=
  match lines with
  | [] => .ok []
  | line :: rest =>
    match asmLine line, asmProgram rest with
    | .ok none, .ok is => .ok is
    | .ok (some i), .ok is => .ok (i :: is)
    | .error e, _ => .error e
    | .ok _, .error e => .error e

/-- The words of assembler text, one command a line, each pseudo-command expanded (R79, R80). -/
def assemble (text : List Char) : Except AsmRefusal (List CommandWord) :=
  match asmProgram (text.splitOn '\n') with
  | .ok is => .ok (is.flatMap fun i => (encode i).getD [])
  | .error e => .error e

/-- The upper-case hex digit of a value. -/
def hexChar (d : BitVec 4) : Char := "0123456789ABCDEF".toList.getD d.toNat '0'

/-- The two hex digits of a byte. -/
def hexChars (b : Byte) : List Char := [hexChar (b.extractLsb' 4 4), hexChar (b.extractLsb' 0 4)]

/-- The `0xHH` form of a byte. -/
def showByte (b : Byte) : List Char := '0' :: 'x' :: hexChars b

/-- An item of a string as it is written. -/
def showPart : StringPart → List Char
  | .char c => [Char.ofNat c.toNat]
  | .escR => ['\x5c', 'r']
  | .escN => ['\x5c', 'n']
  | .escBackslash => ['\x5c', '\x5c']
  | .escHex b => '\x5c' :: 'x' :: hexChars b

/-- The line an instruction is written as, where the syntax can write it: a command with a zero
ignored field, or a pseudo-command. An internal operation has no syntax (R77). -/
def showLine : Instr → Option (List Char)
  | .push b => some ("PUSH ".toList ++ showByte b)
  | .hasMessage ignored => if ignored = 0 then some "HAS_MESSAGE".toList else none
  | .nextMessage ignored => if ignored = 0 then some "NEXT_MESSAGE".toList else none
  | .reset ignored => if ignored = 0 then some "RESET".toList else none
  | .pushs text =>
    some ("PUSHS ".toList ++ '\x22' :: (text.flatMap showPart ++ ['\x22']))
  | .pushb bytes => some ("PUSHB ".toList ++ List.intercalate [',', ' '] (bytes.map showByte))
  | .rbPush _ | .rbReadAt _ | .rbAdvanceRead _ | .rbSetRead _ | .rbSetAvailable _ => none
  | .crcTableEntry _ | .crc24q _ _ | .rtcm3Validate _ => none
  | .nmeaHexval _ | .nmeaXor _ _ _ | .nmeaValidate _ _ => none
  | .rtcm3Detect _ _ | .nmeaDetect _ _ | .scanPass => none
  | .qEnqueue _ | .qEvict | .qDequeue | .qHas => none

end Sys2Proof.Machine
end

