-- ==== Sys2Proof/Machine/Trace.lean ====
section
/-! DEFINITION. Two other views of a scan pass that the spec speaks of: the descriptors it emits, in
stream order (`42_frame_scanner.md` R174, R178), and the micro-states a realisation may sequence it
through (R175). Neither is observable by a command (`20_memory.md` R57). -/

namespace Sys2Proof.Machine

/-- The descriptors a pass over `(pos, rem)` emits, each with its stream offset: how many bytes the
pass had consumed when it met the candidate, counting from `off` at `pos`. -/
def scanEmissions : Nat → State → Nat → Nat → Nat → List (Nat × Descriptor)
  | 0, _, _, _, _ => []
  | fuel + 1, s, pos, rem, off =>
    if rem < minScan then []
    else
      match s.classify pos rem with
      | .incomplete => []
      | .skip => scanEmissions fuel s (s.addMod pos 1) (rem - 1) (off + 1)
      | .emit d adv => (off, d) :: scanEmissions fuel s (s.addMod pos adv) (rem - adv) (off + adv)

/-- The descriptors that SCAN_PASS emits in a state, each with its offset from `read_pos`. -/
def State.passEmissions (s : State) : List (Nat × Descriptor) :=
  scanEmissions s.available s s.readPos s.available 0

/-- The micro-states of R175, and `done` after the commit. -/
inductive MicroPhase where
  | seed
  | test
  | rtcm
  | nmea
  | emit (d : Descriptor) (adv : Nat)
  | advance (adv : Nat)
  | commit
  | done
  deriving DecidableEq, Repr

/-- A pass in progress: the micro-state, the scanner's locals and the block. -/
structure MicroState where
  phase : MicroPhase
  pos : Nat
  rem : Nat
  block : State
  deriving DecidableEq, Repr

/-- Where a detector's verdict leads (R175, R170). -/
def verdictPhase : Verdict → MicroPhase
  | .skip => .advance 1
  | .incomplete => .commit
  | .emit d adv => .emit d adv

/-- One row of R175's table. -/
def microStep (m : MicroState) : MicroState :=
  match m.phase with
  | .seed => { m with phase := .test, pos := m.block.readPos, rem := m.block.available }
  | .test =>
    if m.rem < minScan then { m with phase := .commit }
    else if m.block.readByte m.pos = rtcmPreamble then { m with phase := .rtcm }
    else if isNmeaStart (m.block.readByte m.pos) then { m with phase := .nmea }
    else { m with phase := .advance 1 }
  | .rtcm => { m with phase := verdictPhase (m.block.rtcm3Detect m.pos m.rem) }
  | .nmea => { m with phase := verdictPhase (m.block.nmeaDetect m.pos m.rem) }
  | .emit d adv => { m with phase := .advance adv, block := m.block.enqueue d }
  | .advance adv =>
    { m with phase := .test, pos := m.block.addMod m.pos adv, rem := m.rem - adv }
  | .commit => { m with phase := .done, block := m.block.commit m.pos m.rem }
  | .done => m

/-- `n` micro-steps. -/
def microRun : Nat → MicroState → MicroState
  | 0, m => m
  | n + 1, m => microRun n (microStep m)

end Sys2Proof.Machine
end

