-- ==== Sys2Proof/WellFormed.lean ====
section
/-! DEFINITION. The ranges the Operands lines of the spec give, where they can be read from the
instruction alone. Ranges that involve `N` or the state are checked by the meanings. -/

namespace Sys2Proof

/-- A descriptor's own ranges (`10_state.md` R29, R31, R32): no descriptor carries UNKNOWN or
NO_MESSAGE, the length is at most 1029, and `valid` holds exactly when the reason is NONE.
DESIGN CHOICE (log entry 22): R29 also says that the descriptor of a framing error has length 0. That
is not asked here, and neither is a reason that R33 lists for the protocol. -/
def Descriptor.wf (d : Descriptor) : Bool :=
  d.protocol != .unknown && d.reason != .noMessage && decide (d.length ≤ 1029)
    && (d.valid == (d.reason == .none))

/-- A plain character of a string is one that can stand there unescaped: printable ASCII, neither
the closing quote nor the escape character (`30_encoding.md` R80; DESIGN CHOICE, log entry 17). -/
def StringPart.wf : StringPart → Bool
  | .char c => decide (0x20 ≤ c.toNat) && decide (c.toNat ≤ 0x7E) && c != 0x22#8 && c != 0x5C#8
  | .escR | .escN | .escBackslash | .escHex _ => true

/-- The well-formed instructions. -/
def Instr.wf : Instr → Bool
  | .push _ | .hasMessage _ | .nextMessage _ | .reset _ => true
  | .pushs text => text.all StringPart.wf
  | .pushb bytes => bytes != []
  | .rbPush _ | .rbReadAt _ | .rbAdvanceRead _ | .rbSetRead _ | .rbSetAvailable _ => true
  | .crcTableEntry _ => true
  | .crc24q _ n => decide (n ≤ 1026)
  | .rtcm3Validate _ => true
  | .nmeaHexval _ => true
  | .nmeaXor _ a b => decide (a ≤ b)
  | .nmeaValidate _ len => decide (2 ≤ len) && decide (len ≤ 96)
  | .rtcm3Detect _ rem => decide (6 ≤ rem)
  | .nmeaDetect _ rem => decide (6 ≤ rem)
  | .scanPass => true
  | .qEnqueue d => d.wf
  | .qEvict | .qDequeue | .qHas => true

end Sys2Proof
end

