-- ==== Sys2Proof/Safety.lean ====
section
/-! DEFINITION. What a safe state is and what a message is, in the terms the statements use. -/

namespace Sys2Proof.Machine

/-- The storage is in canonical form. -/
abbrev StorageOk (s : State) : Prop := Memory.wf s.config.N s.ring

/-- The ranges of the three cursors and the ring invariant (`10_state.md` R22, R23, R24, R26). -/
abbrev RingOk (s : State) : Prop :=
  s.writePos < s.config.N ∧ s.readPos < s.config.N ∧ s.available ≤ s.config.N ∧
    s.writePos = s.addMod s.readPos s.available

/-- A descriptor within the ranges of `10_state.md` R29, R31 and R32. -/
abbrev DescriptorOk (s : State) (d : Descriptor) : Prop :=
  d.wf = true ∧ d.start < s.config.N ∧ d.length ≤ s.config.N

/-- The queue holds at most `Q` descriptors, each within its ranges (`10_state.md` R28). -/
abbrev QueueOk (s : State) : Prop :=
  s.queue.length ≤ s.config.Q ∧ ∀ d ∈ s.queue, DescriptorOk s d

/-- Every byte of a span has been written since power-on. -/
abbrev SpanWritten (s : State) (p n : Nat) : Prop :=
  ∀ k, k < n → (s.ring.find (s.addMod p k)).isSome = true

/-- No read of the block can meet a power-on byte: the live region and every queued span have been
written (`70_reset_and_hazards.md` R261). -/
abbrev ReadsWritten (s : State) : Prop :=
  SpanWritten s s.readPos s.available ∧ ∀ d ∈ s.queue, SpanWritten s d.start d.length

/-- Where a scan pass comes to rest (`42_frame_scanner.md` R177): too few live bytes, an RTCM3
candidate that is not complete, or an NMEA candidate with no terminator and no marker after it.
The last two clauses carry `6 ≤ available`; the spec's "exactly one" needs it in the second, which
prints without it (log entry 20). -/
abbrev Parked (s : State) : Prop :=
  s.available < 6 ∨
  (6 ≤ s.available ∧ s.readByte s.readPos = rtcmPreamble ∧
    detectionLength (s.byteAt s.readPos 1) (s.byteAt s.readPos 2) ≤ 1023 ∧
    s.available < detectionLength (s.byteAt s.readPos 1) (s.byteAt s.readPos 2) + 6) ∨
  (6 ≤ s.available ∧ s.available < 96 ∧ isNmeaStart (s.readByte s.readPos) = true ∧
    ∀ k, k < s.available → 1 ≤ k → isLineStop (s.byteAt s.readPos k) = false)

/-- A response without reserved values (`30_encoding.md` R81), whose length counts its data bytes
and whose `valid` agrees with its reason (`10_state.md` R32). -/
def ResponseOk : Response → Prop
  | .msgReady _ => True
  | .message h data =>
    ∃ f, decodeHeader h = .ok f ∧ f.length = data.length ∧ (f.valid = true ↔ f.reason = .none)

/-- A safe state. -/
def SafeState (s : State) : Prop :=
  StorageOk s ∧ RingOk s ∧ QueueOk s ∧ ReadsWritten s ∧ Parked s ∧
    ∀ r ∈ s.responses, ResponseOk r

/-- A complete RTCM3 frame whose CRC is right: preamble, length, payload, CRC (`42_frame_scanner.md`
R152; `41_validators.md` R128), the CRC by the bitwise form of R125. -/
def IsRtcmFrame (l : List Byte) : Prop :=
  ∃ b1 b2 payload,
    l = 0xD3#8 :: b1 :: b2 ::
      (payload ++ crcBytes (crcOfBytesBitwise (0xD3#8 :: b1 :: b2 :: payload))) ∧
    (b1.toNat % 16) * 256 + b2.toNat = payload.length ∧ payload.length ≤ 1023

/-- A complete NMEA sentence whose checksum is right (`42_frame_scanner.md` R162;
`41_validators.md` R134): marker, body, the first star, two hex digits, anything, terminator. -/
def IsNmeaSentence (l : List Byte) : Prop :=
  ∃ marker body h1 h2 tail x y,
    isNmeaStart marker = true ∧ l = marker :: (body ++ 0x2A#8 :: h1 :: h2 :: (tail ++ [0x0A#8])) ∧
    l.length ≤ 96 ∧ (∀ b ∈ body, b ≠ 0x2A#8) ∧
    (∀ b ∈ body ++ h1 :: h2 :: tail, isLineStop b = false) ∧
    hexVal h1 = some x ∧ hexVal h2 = some y ∧ body.foldl (· ^^^ ·) 0#8 = hexPair x y

/-- A valid message of a protocol. -/
def IsMessage : Protocol → List Byte → Prop
  | .unknown, _ => False
  | .rtcm3, l => IsRtcmFrame l
  | .nmea, l => IsNmeaSentence l

/-- The two states differ at most in bytes not written in the first: the second has other power-on
contents there. -/
def SameButPowerOn (s t : State) : Prop :=
  t = s.setRing t.ring ∧ ∀ a b, s.ring.find a = some b → t.ring.find a = some b

end Sys2Proof.Machine
end

