-- ==== Sys2Proof/Certificates/Slice0/Obligations.lean ====
section
/-! DEFINITION. The statements for the provers, family by family. Each docstring names the rules of
the spec it formalises. Where a rule's whole effect is one record update, the statement says the next
state in full, which is the result, the frame and the completion at once. -/

open Sys2Proof Sys2Proof.Machine

/-! ## Encoding (`30_encoding.md`) -/

/-- A few command words written out from the spec (R72, R73; `95_test_vectors.md` L2.9). -/
def Obligations.DecodeReadsTheSpecsWords : Prop :=
  decode 0x024#10 = .push 0x24 ∧ decode 0x0D3#10 = .push 0xD3 ∧ decode 0x000#10 = .push 0x00 ∧
  decode 0x0FF#10 = .push 0xFF ∧ decode 0x100#10 = .hasMessage 0x00 ∧
  decode 0x1A5#10 = .hasMessage 0xA5 ∧ decode 0x200#10 = .nextMessage 0x00 ∧
  decode 0x300#10 = .reset 0x00 ∧ decode 0x3FF#10 = .reset 0xFF

/-- R72, by its match and mask columns; R71 for the data field. -/
def Obligations.OpcodeMapByMatchAndMask : Prop :=
  ∀ w : CommandWord,
    (w &&& 0x300#10 = 0x000#10 → decode w = .push (w.setWidth 8)) ∧
    (w &&& 0x300#10 = 0x100#10 → decode w = .hasMessage (w.setWidth 8)) ∧
    (w &&& 0x300#10 = 0x200#10 → decode w = .nextMessage (w.setWidth 8)) ∧
    (w &&& 0x300#10 = 0x300#10 → decode w = .reset (w.setWidth 8))

/-- R70 to R74, R77, R80: decoding the words of an instruction gives the commands it stands for, a
command being its own; every word is the encoding of what it decodes to; a whole stream of words
comes back from its decoding. -/
def Obligations.DecodeAndEncodeAgree : Prop :=
  (∀ i ws, encode i = some ws → ws.map decode = expand i) ∧
  (∀ i, expand i = [i] → ∃ w, encode i = some [w] ∧ decode w = i) ∧
  (∀ w, encode (decode w) = some [w]) ∧
  (∀ ws : List CommandWord, ((ws.map decode).flatMap fun i => (encode i).getD []) = ws)

/-- R73: PUSH's operand is the data field as it stands; in the other three commands any value there
selects the same command with the same effect. -/
def Obligations.IgnoredFieldHasNoEffect : Prop :=
  (∀ b : Byte, decode (0b00#2 ++ b) = .push b) ∧
  ∀ (op : BitVec 2) (x y : Byte) (s : State) (rest : List HostInput), op ≠ 0b00#2 →
    s.inbox = .command (op ++ x) :: rest →
    step s = step (s.setInbox (.command (op ++ y) :: rest))

/-- From R79 and R80: the line `showLine` writes for an instruction assembles to that instruction.
For PUSHS it covers lines the two rules leave open, where the reading is the model's own choice: a
semicolon inside the quotes is no comment (log entry 16, DESIGN CHOICE); which characters stand
unescaped, and that the string may be empty (log entry 17, DESIGN CHOICE). -/
def Obligations.AssemblerReadsBackWhatItWrites : Prop :=
  ∀ (i : Instr) (line : List Char), i.wf = true → showLine i = some line →
    asmLine line = .ok (some i)

/-- R76, R31, R33, R81: the header word as a number, with the codes of the two tables written out; it
decodes to the fields of its message, and a word the decoder accepts is the header of its fields. -/
def Obligations.HeaderWordRoundTrip : Prop :=
  (∀ m : OutputMessage, m.length ≤ 1029 → ∃ p r : Nat,
    (headerWord m).toNat =
      p * 2 ^ 22 + (if m.valid then 1 else 0) * 2 ^ 21 + r * 2 ^ 18 + m.length ∧
    (m.protocol, p) ∈ [(Protocol.unknown, 0), (.rtcm3, 1), (.nmea, 2)] ∧
    (m.reason, r) ∈ [(Reason.none, 0), (.invalidLength, 1), (.crcFail, 2), (.tooLong, 3),
      (.checksumFail, 4), (.noMessage, 5)]) ∧
  (∀ m : OutputMessage, m.length ≤ 1029 →
    decodeHeader (headerWord m) = .ok ⟨m.protocol, m.valid, m.reason, m.length⟩) ∧
  ∀ (h : HeaderWord) (f : HeaderFields) (data : List Byte), decodeHeader h = .ok f →
    headerWord ⟨f.protocol, f.length, f.valid, f.reason, data⟩ = h

/-! ## Steps (`20_memory.md`, `44_interface.md`, `60_exceptions.md`) -/

/-- R70, R57, R220: a step takes the host's oldest command word off the stream and is exec of what
it decodes to, which is well formed; with no command waiting it changes nothing (log entry 3). -/
def Obligations.StepRunsTheDecodedCommand : Prop :=
  (∀ (s : State) (w : CommandWord) (rest : List HostInput), s.inbox = .command w :: rest →
    (decode w).wf = true ∧ step s = exec (decode w) (s.setInbox rest)) ∧
  (∀ s : State, s.inbox = [] → step s = .next s) ∧
  ∀ (s : State) (w₁ w₂ : CommandWord) (rest : List HostInput),
    s.inbox = .overlapping w₁ w₂ :: rest → step s = .refused .overlappingCommands

/-- R240, R74, R250: every command word, in every state, is accepted and completes. -/
def Obligations.EveryCommandCompletes : Prop :=
  ∀ (s : State) (w : CommandWord) (rest : List HostInput), s.inbox = .command w :: rest →
    ∃ t, step s = .next t ∧ t.inbox = rest

/-- R80: a pseudo-command does what the steps over its words do, one after another; so does a
command. -/
def Obligations.PseudoCommandsRunAsTheirExpansion : Prop :=
  ∀ (i : Instr) (words : List CommandWord) (s : State) (rest : List HostInput),
    encode i = some words → s.inbox = words.map .command ++ rest →
    Sys2Proof.core.run words.length s = exec i (s.setInbox rest)

/-- R34, R272: no step changes a response given before; it gives at most one more. -/
def Obligations.ResponsesNeverChange : Prop :=
  ∀ s t : State, step s = .next t →
    ∃ r, t.responses = s.responses ++ r ∧ r.length ≤ 1

/-- R38: no instruction writes the parameters. -/
def Obligations.NoInstructionWritesTheParameters : Prop :=
  ∀ (i : Instr) (s t : State), exec i s = .next t → t.config = s.config

/-- R21: only a push writes the storage. -/
def Obligations.OnlyPushesWriteTheStorage : Prop :=
  ∀ (i : Instr) (s t : State), exec i s = .next t →
    (∀ b, i ≠ .push b) → (∀ text, i ≠ .pushs text) → (∀ bytes, i ≠ .pushb bytes) →
    (∀ b, i ≠ .rbPush b) → ∀ a, t.readByte a = s.readByte a

/-! ## Reset and the invariants (`10_state.md`, `70_reset_and_hazards.md`) -/

/-- R260, R41, R262: power-on gives the three cursors 0 and an empty queue, every storage byte its
free value, and is safe, whatever the parameters; the first command of the host runs at once. -/
def Obligations.PowerOnState : Prop :=
  ∀ p : Config.Params,
    (State.powerOn p).writePos = 0 ∧ (State.powerOn p).readPos = 0 ∧
    (State.powerOn p).available = 0 ∧ (State.powerOn p).queue = [] ∧
    (∀ a, (State.powerOn p).readByte a = Config.powerOnByte (a % p.N)) ∧
    SafeState (State.powerOn p) ∧
    ∀ w, step ((State.powerOn p).setInbox [.command w]) = exec (decode w) (State.powerOn p)

/-- R26: the ring invariant and the ranges of R22 to R24 hold in every state a command leaves. -/
def Obligations.StepKeepsTheRingInvariant : Prop :=
  ∀ s t : State, RingOk s → step s = .next t → RingOk t

/-- R261: every byte that a later pass or dequeue can read stays written. -/
def Obligations.StepKeepsReadableBytesWritten : Prop :=
  ∀ s t : State, RingOk s → ReadsWritten s → step s = .next t → ReadsWritten t

/-- R20 to R32, R81, R177 together: a step keeps a safe state safe. -/
def Obligations.StepKeepsSafeState : Prop :=
  ∀ s t : State, SafeState s → step s = .next t → SafeState t

/-- R261: the power-on contents of the storage are never observable. Two states that differ in
unwritten bytes alone answer every step alike, responses included. -/
def Obligations.PowerOnContentsAreUnobservable : Prop :=
  ∀ s t s' : State, SafeState s → SameButPowerOn s t → step s = .next s' →
    ∃ t', step t = .next t' ∧ SameButPowerOn s' t'

/-- R10, R198: the registers fit the derived widths, and the storage and the queue are bounded. -/
def Obligations.SafeStatesFitTheWidths : Prop :=
  ∀ s : State, SafeState s →
    s.writePos < 2 ^ addressWidth s.config.N ∧ s.readPos < 2 ^ addressWidth s.config.N ∧
    s.available < 2 ^ countWidth s.config.N ∧ s.queue.length < 2 ^ occupancyWidth s.config.Q ∧
    s.ring.length ≤ s.config.N ∧ s.queue.length ≤ s.config.Q ∧
    ∀ d ∈ s.queue, d.start < 2 ^ addressWidth s.config.N ∧ d.length < 2 ^ 11

/-! ## The commands (`44_interface.md`) -/

/-- R216: RESET empties the queue and the cursors, leaves `S` alone and gives no response; a second
one changes nothing. -/
def Obligations.ResetGivesTheEmptyState : Prop :=
  ∀ (x y : Byte) (s : State), ∃ t,
    exec (.reset x) s = .next t ∧
    t = { s with queue := [], writePos := 0, readPos := 0, available := 0 } ∧
    exec (.reset y) t = .next t

/-- R212: HAS_MESSAGE responds whether the queue is non-empty, and changes nothing else. -/
def Obligations.HasMessageOnlyResponds : Prop :=
  ∀ (x : Byte) (s : State),
    exec (.hasMessage x) s =
      .next { s with responses := s.responses ++ [.msgReady (decide (s.queue ≠ []))] }

/-- R214, R194, R35, R53, R76: NEXT_MESSAGE removes the oldest descriptor and responds with its
header and the bytes of its span as they stand now; on an empty queue it responds with the
sentinel's header and no data, and changes nothing else. HeaderWordRoundTrip gives the header's
bits. -/
def Obligations.NextMessageDeliversTheOldest : Prop :=
  ∀ (x : Byte) (s : State),
    (s.queue = [] → exec (.nextMessage x) s =
      .next { s with responses := s.responses ++ [.message 0x140000#24 []] }) ∧
    ∀ d rest, s.queue = d :: rest → ∃ h data,
      exec (.nextMessage x) s =
        .next { s with queue := rest, responses := s.responses ++ [.message h data] } ∧
      data.length = d.length ∧
      (∀ (k : Nat) (hk : k < data.length), data[k] = s.readByte (s.addMod d.start k)) ∧
      (d.wf = true → h = headerWord ⟨d.protocol, d.length, d.valid, d.reason, data⟩ ∧
        decodeHeader h = .ok ⟨d.protocol, d.valid, d.reason, d.length⟩)

/-- R210, R100: PUSH completes; it stores its byte at the write cursor and leaves every other byte
alone, moves the write cursor by one, and responds whether the queue is then non-empty. -/
def Obligations.PushStoresOneByteAndResponds : Prop :=
  ∀ (b : Byte) (s : State), ∃ t, exec (.push b) s = .next t ∧
    t.readByte s.writePos = b ∧
    (∀ a, a % s.config.N ≠ s.writePos % s.config.N → t.readByte a = s.readByte a) ∧
    t.writePos = s.addMod s.writePos 1 ∧
    t.responses = s.responses ++ [.msgReady (decide (t.queue ≠ []))] ∧
    t.config = s.config ∧ t.inbox = s.inbox ∧ t.returned = s.returned

/-- R100, R170, R171, R176: after a PUSH every byte is accounted for: the read cursor has moved by
as many bytes as are no longer live, the overflow of a full ring included. -/
def Obligations.PushMovesTheReadCursorByWhatItConsumed : Prop :=
  ∀ (b : Byte) (s : State), RingOk s → ∃ t, exec (.push b) s = .next t ∧
    t.available ≤ min (s.available + 1) s.config.N ∧
    t.readPos = s.addMod s.readPos (s.available + 1 - t.available)

/-- R178, R190, R246: the queue after a PUSH is the newest `Q` of the old queue followed by the
descriptors that the pass emitted, in their order. -/
def Obligations.PushKeepsTheNewestDescriptors : Prop :=
  ∀ (b : Byte) (s : State), s.queue.length ≤ s.config.Q → ∃ t, exec (.push b) s = .next t ∧
    t.queue =
      (s.queue ++ (s.ringPush b).passEmissions.map Prod.snd).drop
        (s.queue.length + (s.ringPush b).passEmissions.length - s.config.Q)

/-- R128, R134, R152, R162: a descriptor queued by a PUSH is valid exactly when the bytes of its
span are a complete message of its protocol with the right CRC or checksum. -/
def Obligations.QueuedValidityIsExact : Prop :=
  ∀ (b : Byte) (s t : State), exec (.push b) s = .next t → ∀ d ∈ t.queue,
    d ∈ s.queue ∨ (d.valid = true ↔ IsMessage d.protocol (t.span d.start d.length))

/-- R53, R80, R210: PUSHB stores its bytes in order from the write cursor on, leaves every other
byte alone, and gives one response a byte. -/
def Obligations.PushbStoresItsBytesInOrder : Prop :=
  ∀ (bytes : List Byte) (s : State), s.writePos < s.config.N →
    ∃ t, exec (.pushb bytes) s = .next t ∧
      t.writePos = s.addMod s.writePos bytes.length ∧
      (∃ r, t.responses = s.responses ++ r ∧ r.length = bytes.length) ∧
      (bytes.length ≤ s.config.N → ∀ (k : Nat) (hk : k < bytes.length),
        t.readByte (s.addMod s.writePos k) = bytes[k]) ∧
      (∀ a, (∀ k, k < bytes.length → a % s.config.N ≠ s.addMod s.writePos k) →
        t.readByte a = s.readByte a) ∧
      t.config = s.config ∧ t.inbox = s.inbox ∧ t.returned = s.returned

/-- R80, R15: PUSHS pushes the bytes its string stands for, an escape its one byte. -/
def Obligations.PushsPushesTheBytesOfItsString : Prop :=
  (∀ (text : List StringPart) (s : State), s.writePos < s.config.N →
    ∃ t, exec (.pushs text) s = .next t ∧ exec (.pushb (text.map StringPart.byte)) s = .next t ∧
      t.writePos = s.addMod s.writePos text.length ∧
      (∀ a, (∀ k, k < text.length → a % s.config.N ≠ s.addMod s.writePos k) →
        t.readByte a = s.readByte a) ∧
      t.config = s.config ∧ t.inbox = s.inbox ∧ t.returned = s.returned) ∧
  StringPart.escR.byte = 0x0D ∧ StringPart.escN.byte = 0x0A ∧
  StringPart.escBackslash.byte = 0x5C ∧
  (∀ b, (StringPart.escHex b).byte = b) ∧ ∀ c, (StringPart.char c).byte = c

/-! ## The block end to end (`95_test_vectors.md` L1) -/

/-- R128, R152, R170, R214 (L1.7): a complete RTCM3 frame with the right CRC, pushed into a ring with
no live byte and room for it, gives one valid descriptor at its last byte, and NEXT_MESSAGE gives
the frame back. -/
def Obligations.RtcmFrameIsDelivered : Prop :=
  ∀ (s : State) (frame : List Byte), RingOk s → s.available = 0 → s.queue = [] →
    IsRtcmFrame frame → frame.length ≤ s.config.N →
    ∃ t, exec (.pushb frame) s = .next t ∧ t.available = 0 ∧
      t.queue = [⟨.rtcm3, s.writePos, frame.length, true, .none⟩] ∧
      t.responses = s.responses ++
        (List.replicate (frame.length - 1) (.msgReady false) ++ [.msgReady true]) ∧
      ∃ u, exec (.nextMessage 0) t = .next u ∧ u.queue = [] ∧
        u.responses =
          t.responses ++ [.message (BitVec.ofNat 24 (0x600000 + frame.length)) frame]

/-- R134, R162, R170, R214 (L1.2): the same for a complete NMEA sentence of at least 6 bytes with the
right checksum. A sentence of 5 bytes is left out: no pass classifies fewer than 6 live bytes (R170),
so its last byte alone does not frame it. -/
def Obligations.NmeaSentenceIsDelivered : Prop :=
  ∀ (s : State) (sentence : List Byte), RingOk s → s.available = 0 → s.queue = [] →
    IsNmeaSentence sentence → 6 ≤ sentence.length → sentence.length ≤ s.config.N →
    ∃ t, exec (.pushb sentence) s = .next t ∧ t.available = 0 ∧
      t.queue = [⟨.nmea, s.writePos, sentence.length, true, .none⟩] ∧
      t.responses = s.responses ++
        (List.replicate (sentence.length - 1) (.msgReady false) ++ [.msgReady true]) ∧
      ∃ u, exec (.nextMessage 0) t = .next u ∧ u.queue = [] ∧
        u.responses =
          t.responses ++ [.message (BitVec.ofNat 24 (0xA00000 + sentence.length)) sentence]

/-- R170, R242 (L1.6): a stream with no preamble and no start marker makes no descriptor, and keeps
at most five bytes live. -/
def Obligations.MarkerFreeStreamMakesNoMessage : Prop :=
  ∀ (s : State) (bytes : List Byte), RingOk s → s.available = 0 →
    (∀ b ∈ bytes, b ≠ rtcmPreamble ∧ isNmeaStart b = false) →
    ∃ t, exec (.pushb bytes) s = .next t ∧ t.queue = s.queue ∧
      t.available = min bytes.length (min 5 s.config.N)

/-- R266: a ring of fewer than 6 bytes never frames anything. -/
def Obligations.SmallRingFramesNothing : Prop :=
  ∀ (s : State) (bytes : List Byte), s.config.N < 6 → s.available ≤ s.config.N →
    ∃ t, exec (.pushb bytes) s = .next t ∧ t.queue = s.queue

/-- R270: how many later PUSHes leave a span intact, and that one more overwrites its first byte.
`s` is the state after the pass that framed the span. -/
def Obligations.StaleDataHorizon : Prop :=
  ∀ (s : State) (start length : Nat) (bytes : List Byte), RingOk s → start < s.config.N →
    s.available + s.distMod (s.addMod start length) s.readPos + length ≤ s.config.N →
    (bytes.length ≤
        s.config.N - s.available - s.distMod (s.addMod start length) s.readPos - length →
      ∃ t, exec (.pushb bytes) s = .next t ∧ t.span start length = s.span start length) ∧
    (bytes.length =
        s.config.N - s.available - s.distMod (s.addMod start length) s.readPos - length →
      0 < length → ∀ b, ∃ t, exec (.pushb (bytes ++ [b])) s = .next t ∧ t.readByte start = b)

/-! ## Ring buffer operations (`40_ring_buffer.md`) -/

/-- R100. -/
def Obligations.RbPushAppendsOneByte : Prop :=
  ∀ (b : Byte) (s : State), ∃ t, exec (.rbPush b) s = .next t ∧
    t.readByte s.writePos = b ∧
    (∀ a, a % s.config.N ≠ s.writePos % s.config.N → t.readByte a = s.readByte a) ∧
    t.writePos = s.addMod s.writePos 1 ∧
    (s.available = s.config.N →
      t.readPos = s.addMod s.readPos 1 ∧ t.available = s.available) ∧
    (s.available ≠ s.config.N → t.readPos = s.readPos ∧ t.available = s.available + 1) ∧
    t.queue = s.queue ∧ t.config = s.config ∧ t.inbox = s.inbox ∧
    t.responses = s.responses ∧ t.returned = s.returned

/-- R101: the source's form of the overflow step, an increment and a clamp, has the same effect. -/
def Obligations.OverflowTestAgreesWithTheClamp : Prop :=
  ∀ (b : Byte) (s : State), s.available ≤ s.config.N → ∃ t, exec (.rbPush b) s = .next t ∧
    t.available = min (s.available + 1) s.config.N ∧
    t.readPos = if s.config.N < s.available + 1 then s.addMod s.readPos 1 else s.readPos

/-- R102: a live byte relative to the read cursor; outside the live region the call is refused; the
scan pass's absolute reads are these reads. -/
def Obligations.RbReadAtReadsALiveByte : Prop :=
  ∀ (offset : Nat) (s : State),
    (offset < s.available →
      exec (.rbReadAt offset) s =
        .next { s with returned := .byte (s.readByte (s.addMod s.readPos offset)) }) ∧
    (s.available ≤ offset → exec (.rbReadAt offset) s = .refused .readAtOutsideLive) ∧
    ∀ pos k, pos < s.config.N →
      s.readByte (s.addMod s.readPos (s.distMod s.readPos pos + k)) = s.readByte (s.addMod pos k)

/-- R104: the oldest `n` bytes are dropped, the ring invariant kept; more than are live is refused. -/
def Obligations.RbAdvanceReadDropsTheOldest : Prop :=
  ∀ (n : Nat) (s : State),
    (n ≤ s.available → ∃ t, exec (.rbAdvanceRead n) s = .next t ∧
      t = { s with readPos := s.addMod s.readPos n, available := s.available - n } ∧
      (RingOk s → RingOk t ∧ (n = 0 → t = s) ∧ (n = s.available → t.readPos = t.writePos))) ∧
    (s.available < n → exec (.rbAdvanceRead n) s = .refused .advanceBeyondLive)

/-- R106, R107: each sets its one register, and the pair that a pass commits keeps the ring
invariant. -/
def Obligations.CommitPairKeepsTheRingInvariant : Prop :=
  ∀ s : State,
    (∀ p, p < s.config.N → exec (.rbSetRead p) s = .next { s with readPos := p }) ∧
    (∀ n, n ≤ s.config.N → exec (.rbSetAvailable n) s = .next { s with available := n }) ∧
    ∀ rem, RingOk s → rem ≤ s.available → ∃ t u,
      exec (.rbSetRead (s.addMod s.readPos (s.available - rem))) s = .next t ∧
      exec (.rbSetAvailable rem) t = .next u ∧ RingOk u ∧ u.available = rem

/-- The model's choice of log entry 8, from R11, R29, R106 and R107: a value outside a register's or
a descriptor field's range is refused, never truncated. -/
def Obligations.OutOfRangeValuesAreRefused : Prop :=
  ∀ s : State,
    (∀ p, s.config.N ≤ p → exec (.rbSetRead p) s = .refused .ringIndexOutOfRange) ∧
    (∀ n, s.config.N < n → exec (.rbSetAvailable n) s = .refused .countOutOfRange) ∧
    ∀ d : Descriptor, s.config.N ≤ d.start →
      exec (.qEnqueue d) s = .refused .ringIndexOutOfRange

/-! ## Validators (`41_validators.md`) -/

/-- R120: the entry computed from the polynomial is the entry of the printed table. -/
def Obligations.CrcTableEntryIsTheRomEntry : Prop :=
  crcRom.length = 256 ∧
  ∀ (i : Byte) (s : State),
    exec (.crcTableEntry i) s = .next { s with returned := .crc (crcRomAt i) }

/-- R124: the CRC of no bytes is 0, and one more byte is one turn of the recurrence. -/
def Obligations.Crc24qFollowsTheRecurrence : Prop :=
  ∀ (p n : Nat) (s : State), ∃ c : Crc,
    exec (.crc24q p 0) s = .next { s with returned := .crc 0#24 } ∧
    exec (.crc24q p n) s = .next { s with returned := .crc c } ∧
    exec (.crc24q p (n + 1)) s =
      .next { s with
        returned :=
          .crc ((c <<< 8) ^^^ crcRomAt ((c >>> 16).setWidth 8 ^^^ s.readByte (s.addMod p n))) }

/-- R125: the bitwise form equals the table form on every input. -/
def Obligations.CrcBitwiseFormEqualsTableForm : Prop :=
  ∀ (bytes : List Byte) (p n : Nat) (s : State),
    crcOfBytesBitwise bytes = crcOfBytes bytes ∧
    exec (.crc24q p n) s = .next { s with returned := .crc (crcOfBytesBitwise (s.span p n)) }

/-- R126: a message followed by its own CRC, big-endian, has CRC 0. -/
def Obligations.CrcResidueIsZero : Prop :=
  ∀ m : List Byte, crcOfBytes (m ++ crcBytes (crcOfBytes m)) = 0#24

/-- R128, R54: RTCM3_VALIDATE compares the CRC of header and payload with the three bytes after
them, read big-endian, over the 10-bit length. -/
def Obligations.Rtcm3ValidateComparesTheCrc : Prop :=
  ∀ (p : Nat) (s : State), ∃ ok : Bool,
    exec (.rtcm3Validate p) s = .next { s with returned := .bit ok } ∧
    ∀ len, len = (s.byteAt p 1).toNat % 4 * 256 + (s.byteAt p 2).toNat + 3 →
      (ok = true ↔ (crcOfBytesBitwise (s.span p len)).toNat =
        (s.byteAt p len).toNat * 65536 + (s.byteAt p (len + 1)).toNat * 256
          + (s.byteAt p (len + 2)).toNat)

/-- L1.7, from R124 and R128: changing any one payload byte of a frame that validates, by a bit or
more, makes RTCM3_VALIDATE fail. -/
def Obligations.CorruptedPayloadByteFailsTheCrc : Prop :=
  ∀ (p k : Nat) (v : Byte) (s : State),
    let len := validationLength (s.byteAt p 1) (s.byteAt p 2) + 3
    len + 3 ≤ s.config.N → 3 ≤ k → k < len → v ≠ s.byteAt p k →
    exec (.rtcm3Validate p) s = .next (s.returning (.bit true)) →
    exec (.rtcm3Validate p) (s.writeByte (s.addMod p k) v) =
      .next ((s.writeByte (s.addMod p k) v).returning (.bit false))

/-- R129: the two length masks agree on every frame that reaches validation. -/
def Obligations.LengthMasksAgreeWithinTheBound : Prop :=
  ∀ b1 b2 : Byte,
    detectionLength b1 b2 = b1.toNat % 16 * 256 + b2.toNat ∧
    validationLength b1 b2 = b1.toNat % 4 * 256 + b2.toNat ∧
    (detectionLength b1 b2 ≤ 1023 → validationLength b1 b2 = detectionLength b1 b2)

/-- R130: the value of one hex digit of either case, and NONE for any other byte. -/
def Obligations.NmeaHexvalReadsOneDigit : Prop :=
  ∀ (c : Byte) (s : State), ∃ d : Option (BitVec 4),
    exec (.nmeaHexval c) s = .next { s with returned := .digit d } ∧
    (0x30 ≤ c.toNat ∧ c.toNat ≤ 0x39 → d.map BitVec.toNat = some (c.toNat - 0x30)) ∧
    (0x41 ≤ c.toNat ∧ c.toNat ≤ 0x46 → d.map BitVec.toNat = some (c.toNat - 0x41 + 10)) ∧
    (0x61 ≤ c.toNat ∧ c.toNat ≤ 0x66 → d.map BitVec.toNat = some (c.toNat - 0x61 + 10)) ∧
    (c.toNat < 0x30 ∨ (0x39 < c.toNat ∧ c.toNat < 0x41) ∨ (0x46 < c.toNat ∧ c.toNat < 0x61) ∨
      0x66 < c.toNat → d = none)

/-- R132: the XOR of the sentence bytes `a` to `b - 1`. -/
def Obligations.NmeaXorFoldsTheSpan : Prop :=
  ∀ (p a b : Nat) (s : State),
    exec (.nmeaXor p a b) s =
      .next { s with returned := .byte (((s.span p b).drop a).foldl (· ^^^ ·) 0#8) }

/-- R134: the sentence passes exactly when its first star has two hex digits before the terminator
whose value is the XOR of the bytes before the star. -/
def Obligations.NmeaValidateChecksTheFirstStar : Prop :=
  ∀ (p len : Nat) (s : State), 2 ≤ len → ∃ ok : Bool,
    exec (.nmeaValidate p len) s = .next { s with returned := .bit ok } ∧
    (ok = true ↔ ∃ star h1 h2, 1 ≤ star ∧ star + 2 ≤ len - 2 ∧
      s.byteAt p star = 0x2A#8 ∧ (∀ k, 1 ≤ k → k < star → s.byteAt p k ≠ 0x2A#8) ∧
      hexVal (s.byteAt p (star + 1)) = some h1 ∧ hexVal (s.byteAt p (star + 2)) = some h2 ∧
      ((s.span p star).drop 1).foldl (· ^^^ ·) 0#8 = hexPair h1 h2)

/-! ## Detectors and the scan pass (`42_frame_scanner.md`) -/

/-- R152: the length bound first, then completeness, then the CRC. -/
def Obligations.Rtcm3DetectFramesByLength : Prop :=
  ∀ (pos rem payload : Nat) (s : State),
    payload = (s.byteAt pos 1).toNat % 16 * 256 + (s.byteAt pos 2).toNat →
    (1023 < payload →
      exec (.rtcm3Detect pos rem) s =
        .next { s with returned := .verdict (.emit ⟨.rtcm3, pos, 0, false, .invalidLength⟩ 1) }) ∧
    (payload ≤ 1023 → rem < payload + 6 →
      exec (.rtcm3Detect pos rem) s = .next { s with returned := .verdict .incomplete }) ∧
    (payload ≤ 1023 → payload + 6 ≤ rem →
      exec (.rtcm3Detect pos rem) s =
        .next { s with
          returned := .verdict
            (if s.rtcm3Validate pos then .emit ⟨.rtcm3, pos, payload + 6, true, .none⟩ (payload + 6)
             else .emit ⟨.rtcm3, pos, payload + 6, false, .crcFail⟩ (payload + 6)) })

/-- R162, R164, R166, R244: the first terminator or start marker in the window decides; with
neither, a full window is too long and a shorter one is incomplete. -/
def Obligations.NmeaDetectFramesByLine : Prop :=
  ∀ (pos rem : Nat) (s : State),
    (∀ k, 1 ≤ k → k < min rem 96 → (∀ j, 1 ≤ j → j < k → isLineStop (s.byteAt pos j) = false) →
      (s.byteAt pos k = 0x0A#8 →
        exec (.nmeaDetect pos rem) s =
          .next { s with
            returned := .verdict
              (if s.nmeaValidate pos (k + 1) then .emit ⟨.nmea, pos, k + 1, true, .none⟩ (k + 1)
               else .emit ⟨.nmea, pos, k + 1, false, .checksumFail⟩ (k + 1)) }) ∧
      (isNmeaStart (s.byteAt pos k) = true →
        exec (.nmeaDetect pos rem) s = .next { s with returned := .verdict .skip })) ∧
    ((∀ k, 1 ≤ k → k < min rem 96 → isLineStop (s.byteAt pos k) = false) →
      (96 ≤ rem → exec (.nmeaDetect pos rem) s =
        .next { s with returned := .verdict (.emit ⟨.nmea, pos, 0, false, .tooLong⟩ 1) }) ∧
      (rem < 96 → exec (.nmeaDetect pos rem) s =
        .next { s with returned := .verdict .incomplete }))

/-- R150, R29, R32, R173: what a position emits is a well-formed descriptor that starts there, and
the scan moves on by at least one byte, never past the live bytes. -/
def Obligations.EmittedDescriptorsAreWellFormed : Prop :=
  ∀ (pos rem adv : Nat) (d : Descriptor) (s : State), 1 ≤ rem →
    s.classify pos rem = .emit d adv →
    d.wf = true ∧ d.start = pos ∧ 1 ≤ adv ∧ adv ≤ rem ∧ adv = max d.length 1

/-- R170, R171: SCAN_PASS completes; it moves the read cursor by what it takes off the live count,
does nothing on fewer than 6 live bytes, and leaves the storage and the write cursor alone. -/
def Obligations.ScanPassCommitsWhatItConsumed : Prop :=
  ∀ s : State, s.readPos < s.config.N → ∃ t, exec .scanPass s = .next t ∧
    t = { s with readPos := t.readPos, available := t.available, queue := t.queue } ∧
    t.available ≤ s.available ∧
    t.readPos = s.addMod s.readPos (s.available - t.available) ∧
    (s.available < 6 → t = s)

/-- R174: the descriptors of a pass come in stream order, their spans do not overlap, each starts
where its offset says, and all lie in what the pass consumed. -/
def Obligations.EmissionsComeInStreamOrder : Prop :=
  ∀ s : State, s.readPos < s.config.N →
    s.passEmissions.Pairwise (fun x y => x.1 + max x.2.length 1 ≤ y.1) ∧
    ∀ x ∈ s.passEmissions, x.2.start = s.addMod s.readPos x.1 ∧
      x.1 + max x.2.length 1 ≤ s.available - s.scanPass.available

/-- R177: where a pass comes to rest, from any state. -/
def Obligations.EveryPassComesToRest : Prop :=
  ∀ s : State, ∃ t, exec .scanPass s = .next t ∧ Parked t

/-- R173: `available - 5` iterations always suffice: more never change the result of the loop. -/
def Obligations.PassEndsWithinItsBound : Prop :=
  ∀ (fuel : Nat) (s : State) (pos rem : Nat), rem - 5 ≤ fuel →
    scanLoop fuel s pos rem = scanLoop (rem - 5) s pos rem

/-- R175: the micro-state machine, from SEED with any locals, reaches the end of the commit with the
block as SCAN_PASS leaves it, within four micro-states a live byte and four more. -/
def Obligations.MicroStatesRefineThePass : Prop :=
  ∀ (s : State) (pos rem : Nat), ∃ n, n ≤ 4 * s.available + 4 ∧
    (microRun n ⟨.seed, pos, rem, s⟩).phase = .done ∧
    (microRun n ⟨.seed, pos, rem, s⟩).block = s.scanPass

/-! ## Message queue (`43_message_queue.md`) -/

/-- R190: append, after evicting the oldest of a full queue; the queue never holds more than `Q`. That
it also holds of a descriptor that R29, R31 or R32 says there is none of is the model's own choice
(log entry 22, DESIGN CHOICE). -/
def Obligations.EnqueueEvictsTheOldestWhenFull : Prop :=
  ∀ (d : Descriptor) (s : State), d.start < s.config.N → ∃ t, exec (.qEnqueue d) s = .next t ∧
    t = { s with queue := t.queue } ∧
    (s.queue.length = s.config.Q → t.queue = s.queue.tail ++ [d]) ∧
    (s.queue.length ≠ s.config.Q → t.queue = s.queue ++ [d]) ∧
    (s.queue.length ≤ s.config.Q → t.queue.length ≤ s.config.Q)

/-- R192: the oldest descriptor goes, and nothing else changes. That the call is refused on an empty
queue is no sentence of R192: it is deduced from its `require` and `00_scope.md` R14 (log entry 7,
DEDUCED). -/
def Obligations.EvictDropsTheOldest : Prop :=
  ∀ s : State,
    (∀ d rest, s.queue = d :: rest → exec .qEvict s = .next { s with queue := rest }) ∧
    (s.queue = [] → exec .qEvict s = .refused .evictFromEmptyQueue)

/-- R194, R35: the sentinel on an empty queue; otherwise the oldest descriptor, its bytes copied out
of the storage as it stands. -/
def Obligations.DequeueMaterialisesTheOldest : Prop :=
  ∀ s : State,
    (s.queue = [] →
      exec .qDequeue s =
        .next { s with returned := .message ⟨.unknown, 0, false, .noMessage, []⟩ }) ∧
    ∀ d rest, s.queue = d :: rest → ∃ data,
      exec .qDequeue s =
        .next { s with
          queue := rest,
          returned := .message ⟨d.protocol, d.length, d.valid, d.reason, data⟩ } ∧
      data.length = d.length ∧
      ∀ (k : Nat) (hk : k < data.length), data[k] = s.readByte (s.addMod d.start k)

/-- R196: Q_HAS tells whether the queue is non-empty, and changes nothing else. -/
def Obligations.QHasTestsTheQueue : Prop :=
  ∀ s : State, exec .qHas s = .next { s with returned := .bit (decide (s.queue ≠ [])) }
end

