-- ==== Sys2Proof/Laws/Assembler.lean ====
section
/-! SUPPORT. What the assembler's readers give back of what its writers write. -/

namespace Sys2Proof.Machine

/-- The two hex digits written for a byte read back as that byte. -/
theorem hexByte_hexChars (b : Byte) :
    hexByte (hexChar (b.extractLsb' 4 4)) (hexChar (b.extractLsb' 0 4)) = some b := by
  revert b
  decide

/-- The form `0xHH` written for a byte reads back as that byte, whatever follows it. -/
theorem parseImm8_showByte (b : Byte) (rest : List Char) :
    parseImm8 (showByte b ++ rest) = some (b, rest) := by
  simp [showByte, hexChars, parseImm8, hexByte_hexChars]

/-- Everything that can end a line: it assembles to the instruction, or text is left over. -/
theorem endOfLine_cases (i : Instr) (rest : List Char) :
    endOfLine i rest = .ok (some i) ∨ endOfLine i rest = .error .trailingText := by
  unfold endOfLine
  split
  · exact .inl rfl
  · exact .inl rfl
  · exact .inr rfl

end Sys2Proof.Machine
end

