-- ==== Sys2Proof/Laws/State.lean ====
section
/-! SUPPORT. The small lemmas of the state's updates: what each leaves in each field, so that no
proof unfolds a record update. -/

namespace Sys2Proof.Machine

variable (s : State)

/-! ### setRing -/

@[simp] theorem State.setRing_config (m : Memory) : (s.setRing m).config = s.config := rfl
@[simp] theorem State.setRing_ring (m : Memory) : (s.setRing m).ring = m := rfl
@[simp] theorem State.setRing_writePos (m : Memory) : (s.setRing m).writePos = s.writePos := rfl
@[simp] theorem State.setRing_readPos (m : Memory) : (s.setRing m).readPos = s.readPos := rfl
@[simp] theorem State.setRing_available (m : Memory) : (s.setRing m).available = s.available := rfl
@[simp] theorem State.setRing_queue (m : Memory) : (s.setRing m).queue = s.queue := rfl
@[simp] theorem State.setRing_inbox (m : Memory) : (s.setRing m).inbox = s.inbox := rfl
@[simp] theorem State.setRing_responses (m : Memory) : (s.setRing m).responses = s.responses := rfl
@[simp] theorem State.setRing_returned (m : Memory) : (s.setRing m).returned = s.returned := rfl

/-! ### setWritePos -/

@[simp] theorem State.setWritePos_config (p : Nat) : (s.setWritePos p).config = s.config := rfl
@[simp] theorem State.setWritePos_ring (p : Nat) : (s.setWritePos p).ring = s.ring := rfl
@[simp] theorem State.setWritePos_writePos (p : Nat) : (s.setWritePos p).writePos = p := rfl
@[simp] theorem State.setWritePos_readPos (p : Nat) : (s.setWritePos p).readPos = s.readPos := rfl
@[simp] theorem State.setWritePos_available (p : Nat) : (s.setWritePos p).available = s.available := rfl
@[simp] theorem State.setWritePos_queue (p : Nat) : (s.setWritePos p).queue = s.queue := rfl
@[simp] theorem State.setWritePos_inbox (p : Nat) : (s.setWritePos p).inbox = s.inbox := rfl
@[simp] theorem State.setWritePos_responses (p : Nat) : (s.setWritePos p).responses = s.responses := rfl
@[simp] theorem State.setWritePos_returned (p : Nat) : (s.setWritePos p).returned = s.returned := rfl

/-! ### setReadPos -/

@[simp] theorem State.setReadPos_config (p : Nat) : (s.setReadPos p).config = s.config := rfl
@[simp] theorem State.setReadPos_ring (p : Nat) : (s.setReadPos p).ring = s.ring := rfl
@[simp] theorem State.setReadPos_writePos (p : Nat) : (s.setReadPos p).writePos = s.writePos := rfl
@[simp] theorem State.setReadPos_readPos (p : Nat) : (s.setReadPos p).readPos = p := rfl
@[simp] theorem State.setReadPos_available (p : Nat) : (s.setReadPos p).available = s.available := rfl
@[simp] theorem State.setReadPos_queue (p : Nat) : (s.setReadPos p).queue = s.queue := rfl
@[simp] theorem State.setReadPos_inbox (p : Nat) : (s.setReadPos p).inbox = s.inbox := rfl
@[simp] theorem State.setReadPos_responses (p : Nat) : (s.setReadPos p).responses = s.responses := rfl
@[simp] theorem State.setReadPos_returned (p : Nat) : (s.setReadPos p).returned = s.returned := rfl

/-! ### setAvailable -/

@[simp] theorem State.setAvailable_config (n : Nat) : (s.setAvailable n).config = s.config := rfl
@[simp] theorem State.setAvailable_ring (n : Nat) : (s.setAvailable n).ring = s.ring := rfl
@[simp] theorem State.setAvailable_writePos (n : Nat) : (s.setAvailable n).writePos = s.writePos := rfl
@[simp] theorem State.setAvailable_readPos (n : Nat) : (s.setAvailable n).readPos = s.readPos := rfl
@[simp] theorem State.setAvailable_available (n : Nat) : (s.setAvailable n).available = n := rfl
@[simp] theorem State.setAvailable_queue (n : Nat) : (s.setAvailable n).queue = s.queue := rfl
@[simp] theorem State.setAvailable_inbox (n : Nat) : (s.setAvailable n).inbox = s.inbox := rfl
@[simp] theorem State.setAvailable_responses (n : Nat) : (s.setAvailable n).responses = s.responses := rfl
@[simp] theorem State.setAvailable_returned (n : Nat) : (s.setAvailable n).returned = s.returned := rfl

/-! ### setQueue -/

@[simp] theorem State.setQueue_config (q : List Descriptor) : (s.setQueue q).config = s.config := rfl
@[simp] theorem State.setQueue_ring (q : List Descriptor) : (s.setQueue q).ring = s.ring := rfl
@[simp] theorem State.setQueue_writePos (q : List Descriptor) : (s.setQueue q).writePos = s.writePos := rfl
@[simp] theorem State.setQueue_readPos (q : List Descriptor) : (s.setQueue q).readPos = s.readPos := rfl
@[simp] theorem State.setQueue_available (q : List Descriptor) : (s.setQueue q).available = s.available := rfl
@[simp] theorem State.setQueue_queue (q : List Descriptor) : (s.setQueue q).queue = q := rfl
@[simp] theorem State.setQueue_inbox (q : List Descriptor) : (s.setQueue q).inbox = s.inbox := rfl
@[simp] theorem State.setQueue_responses (q : List Descriptor) : (s.setQueue q).responses = s.responses := rfl
@[simp] theorem State.setQueue_returned (q : List Descriptor) : (s.setQueue q).returned = s.returned := rfl

/-! ### setInbox -/

@[simp] theorem State.setInbox_config (l : List HostInput) : (s.setInbox l).config = s.config := rfl
@[simp] theorem State.setInbox_ring (l : List HostInput) : (s.setInbox l).ring = s.ring := rfl
@[simp] theorem State.setInbox_writePos (l : List HostInput) : (s.setInbox l).writePos = s.writePos := rfl
@[simp] theorem State.setInbox_readPos (l : List HostInput) : (s.setInbox l).readPos = s.readPos := rfl
@[simp] theorem State.setInbox_available (l : List HostInput) : (s.setInbox l).available = s.available := rfl
@[simp] theorem State.setInbox_queue (l : List HostInput) : (s.setInbox l).queue = s.queue := rfl
@[simp] theorem State.setInbox_inbox (l : List HostInput) : (s.setInbox l).inbox = l := rfl
@[simp] theorem State.setInbox_responses (l : List HostInput) : (s.setInbox l).responses = s.responses := rfl
@[simp] theorem State.setInbox_returned (l : List HostInput) : (s.setInbox l).returned = s.returned := rfl

/-! ### respond -/

@[simp] theorem State.respond_config (r : Response) : (s.respond r).config = s.config := rfl
@[simp] theorem State.respond_ring (r : Response) : (s.respond r).ring = s.ring := rfl
@[simp] theorem State.respond_writePos (r : Response) : (s.respond r).writePos = s.writePos := rfl
@[simp] theorem State.respond_readPos (r : Response) : (s.respond r).readPos = s.readPos := rfl
@[simp] theorem State.respond_available (r : Response) : (s.respond r).available = s.available := rfl
@[simp] theorem State.respond_queue (r : Response) : (s.respond r).queue = s.queue := rfl
@[simp] theorem State.respond_inbox (r : Response) : (s.respond r).inbox = s.inbox := rfl
@[simp] theorem State.respond_responses (r : Response) : (s.respond r).responses = s.responses ++ [r] := rfl
@[simp] theorem State.respond_returned (r : Response) : (s.respond r).returned = s.returned := rfl

/-! ### returning -/

@[simp] theorem State.returning_config (r : Returned) : (s.returning r).config = s.config := rfl
@[simp] theorem State.returning_ring (r : Returned) : (s.returning r).ring = s.ring := rfl
@[simp] theorem State.returning_writePos (r : Returned) : (s.returning r).writePos = s.writePos := rfl
@[simp] theorem State.returning_readPos (r : Returned) : (s.returning r).readPos = s.readPos := rfl
@[simp] theorem State.returning_available (r : Returned) : (s.returning r).available = s.available := rfl
@[simp] theorem State.returning_queue (r : Returned) : (s.returning r).queue = s.queue := rfl
@[simp] theorem State.returning_inbox (r : Returned) : (s.returning r).inbox = s.inbox := rfl
@[simp] theorem State.returning_responses (r : Returned) : (s.returning r).responses = s.responses := rfl
@[simp] theorem State.returning_returned (r : Returned) : (s.returning r).returned = r := rfl

/-! ### writeByte -/

@[simp] theorem State.writeByte_config (a : Nat) (v : Byte) : (s.writeByte a v).config = s.config := rfl
@[simp] theorem State.writeByte_ring (a : Nat) (v : Byte) : (s.writeByte a v).ring = s.ring.store (a % s.config.N) v := rfl
@[simp] theorem State.writeByte_writePos (a : Nat) (v : Byte) : (s.writeByte a v).writePos = s.writePos := rfl
@[simp] theorem State.writeByte_readPos (a : Nat) (v : Byte) : (s.writeByte a v).readPos = s.readPos := rfl
@[simp] theorem State.writeByte_available (a : Nat) (v : Byte) : (s.writeByte a v).available = s.available := rfl
@[simp] theorem State.writeByte_queue (a : Nat) (v : Byte) : (s.writeByte a v).queue = s.queue := rfl
@[simp] theorem State.writeByte_inbox (a : Nat) (v : Byte) : (s.writeByte a v).inbox = s.inbox := rfl
@[simp] theorem State.writeByte_responses (a : Nat) (v : Byte) : (s.writeByte a v).responses = s.responses := rfl
@[simp] theorem State.writeByte_returned (a : Nat) (v : Byte) : (s.writeByte a v).returned = s.returned := rfl

end Sys2Proof.Machine
end

