-- ==== Sys2Proof/Laws/Memory.lean ====
section
/-! SUPPORT. The storage list and the one-byte accesses: read after write, what a write leaves
alone, and that every memory operation keeps the canonical form. -/

namespace Sys2Proof.Machine

@[simp] theorem Memory.find_nil (a : Nat) : Memory.find [] a = none := rfl

theorem Memory.find_store_same (m : Memory) (a : Nat) (v : Byte) :
    (m.store a v).find a = some v := by
  induction m with
  | nil => simp [Memory.store, Memory.find]
  | cons c rest ih =>
    obtain ⟨k, b⟩ := c
    unfold Memory.store
    split
    · simp [Memory.find]
    · split
      · simp [Memory.find]
      · rename_i h₁ h₂
        simp [Memory.find, ih, Ne.symm h₂]

theorem Memory.find_store_ne (m : Memory) {a a' : Nat} (v : Byte) (h : a' ≠ a) :
    (m.store a v).find a' = m.find a' := by
  induction m with
  | nil => simp [Memory.store, Memory.find, h.symm]
  | cons c rest ih =>
    obtain ⟨k, b⟩ := c
    unfold Memory.store
    split
    · simp [Memory.find, h.symm]
    · split
      · rename_i _ h₂
        subst h₂
        simp [Memory.find, h.symm]
      · simp [Memory.find, ih]

/-- Read after write, at any index. -/
theorem Memory.find_store (m : Memory) (a a' : Nat) (v : Byte) :
    (m.store a v).find a' = if a' = a then some v else m.find a' := by
  split
  · rename_i h; rw [h, find_store_same]
  · rename_i h; exact find_store_ne m v h

/-- Every index of a storage list after a write is the written one or was there before. -/
theorem Memory.mem_store {m : Memory} {a : Nat} {v : Byte} {c : Host.Cell}
    (h : c ∈ m.store a v) : c = (a, v) ∨ c ∈ m := by
  induction m with
  | nil => simpa [Memory.store] using h
  | cons d rest ih =>
    obtain ⟨k, b⟩ := d
    unfold Memory.store at h
    split at h
    · simpa using h
    · split at h
      · rcases List.mem_cons.mp h with h | h
        · exact .inl h
        · exact .inr (List.mem_cons_of_mem _ h)
      · rcases List.mem_cons.mp h with h | h
        · exact .inr (h ▸ List.mem_cons_self)
        · exact (ih h).imp_right (List.mem_cons_of_mem _)

/-- A write keeps the canonical form. -/
theorem Memory.store_wf {n : Nat} {m : Memory} {a : Nat} (v : Byte) (ha : a < n)
    (h : Memory.wf n m) : Memory.wf n (m.store a v) := by
  refine ⟨?_, fun c hc => ?_⟩
  · have hs := h.1
    clear h
    induction m with
    | nil => simp [Memory.store]
    | cons d rest ih =>
      obtain ⟨k, b⟩ := d
      rw [List.pairwise_cons] at hs
      unfold Memory.store
      split
      · rename_i hlt
        refine List.pairwise_cons.mpr ⟨fun x hx => ?_, List.pairwise_cons.mpr hs⟩
        rcases List.mem_cons.mp hx with rfl | hx
        · exact hlt
        · exact Nat.lt_trans hlt (hs.1 x hx)
      · split
        · rename_i _ he
          subst he
          exact List.pairwise_cons.mpr hs
        · rename_i h₁ h₂
          refine List.pairwise_cons.mpr ⟨fun x hx => ?_, ih hs.2⟩
          rcases Memory.mem_store hx with rfl | hx
          · exact Nat.lt_of_le_of_ne (Nat.not_lt.mp h₁) (Ne.symm h₂)
          · exact hs.1 x hx
  · rcases Memory.mem_store hc with rfl | hc
    · exact ha
    · exact h.2 c hc

/-- The storage at power-on is in canonical form. -/
theorem powerOn_ring_wf (p : Config.Params) : Memory.wf p.N (State.powerOn p).ring :=
  ⟨List.Pairwise.nil, fun _ h => absurd h List.not_mem_nil⟩

/-- The storage after `State.reset` is in canonical form. -/
theorem reset_ring_wf : Memory.wf State.reset.config.N State.reset.ring := powerOn_ring_wf _

/-! ## Ring index arithmetic -/

theorem State.addMod_lt (s : State) (i k : Nat) : s.addMod i k < s.config.N :=
  Nat.mod_lt _ s.config.N_pos

theorem State.addMod_addMod (s : State) (i j k : Nat) :
    s.addMod (s.addMod i j) k = s.addMod i (j + k) := by
  simp [State.addMod, Nat.add_assoc]

theorem State.addMod_zero {s : State} {i : Nat} (h : i < s.config.N) : s.addMod i 0 = i := by
  simp [State.addMod, Nat.mod_eq_of_lt h]

theorem State.addMod_mod (s : State) (i k : Nat) : s.addMod i k % s.config.N = s.addMod i k :=
  Nat.mod_mod _ _

/-- Ring arithmetic depends on the parameters alone. -/
theorem State.addMod_congr {s t : State} (h : s.config = t.config) (i k : Nat) :
    s.addMod i k = t.addMod i k := by simp [State.addMod, h]

/-! ## One-byte accesses -/

theorem State.writeByte_wf {s : State} (a : Nat) (v : Byte) (h : Memory.wf s.config.N s.ring) :
    Memory.wf (s.writeByte a v).config.N (s.writeByte a v).ring :=
  Memory.store_wf v (Nat.mod_lt _ s.config.N_pos) h

/-- What a read gives after a write, at any index. -/
theorem State.readByte_writeByte (s : State) (a a' : Nat) (v : Byte) :
    (s.writeByte a v).readByte a' =
      if a' % s.config.N = a % s.config.N then v else s.readByte a' := by
  simp only [State.readByte, State.writeByte_ring, State.writeByte_config, Memory.find_store]
  by_cases h : a' % s.config.N = a % s.config.N <;> simp [h]

/-- A read depends on the storage and the parameters alone. -/
theorem State.readByte_congr {s t : State} (hc : s.config = t.config) (hr : s.ring = t.ring)
    (a : Nat) : s.readByte a = t.readByte a := by simp [State.readByte, hc, hr]

theorem State.byteAt_congr {s t : State} (hc : s.config = t.config) (hr : s.ring = t.ring)
    (p k : Nat) : s.byteAt p k = t.byteAt p k := by
  simp [State.byteAt, State.addMod_congr hc, State.readByte_congr hc hr]

theorem State.span_congr {s t : State} (hc : s.config = t.config) (hr : s.ring = t.ring)
    (p n : Nat) : s.span p n = t.span p n := by
  simp [State.span, funext (State.byteAt_congr hc hr p)]

@[simp] theorem State.length_span (s : State) (p n : Nat) : (s.span p n).length = n := by
  simp [State.span]

theorem State.getElem_span (s : State) (p n k : Nat) (h : k < (s.span p n).length) :
    (s.span p n)[k] = s.byteAt p k := by simp [State.span]

/-- The head of the host's stream: everything `fetch` can answer. -/
theorem State.fetch_cases (s : State) :
    (s.inbox = [] ∧ s.fetch = .idle) ∨
    (∃ w₁ w₂ rest, s.inbox = .overlapping w₁ w₂ :: rest ∧ s.fetch = .overlap) ∨
    (∃ w rest, s.inbox = .command w :: rest ∧ s.fetch = .command w (s.setInbox rest)) := by
  unfold State.fetch
  cases h : s.inbox with
  | nil => simp
  | cons x rest => cases x <;> simp

end Sys2Proof.Machine
end

