-- ==== Sys2Proof/Laws/Ring.lean ====
section
/-! SUPPORT. What RB_PUSH leaves in each field. -/

namespace Sys2Proof.Machine

variable (s : State) (b : Byte)

@[simp] theorem State.ringPush_config : (s.ringPush b).config = s.config := by
  unfold State.ringPush; split <;> simp

@[simp] theorem State.ringPush_ring :
    (s.ringPush b).ring = s.ring.store (s.writePos % s.config.N) b := by
  unfold State.ringPush; split <;> simp

@[simp] theorem State.ringPush_writePos : (s.ringPush b).writePos = s.addMod s.writePos 1 := by
  unfold State.ringPush; split <;> simp

@[simp] theorem State.ringPush_readPos :
    (s.ringPush b).readPos =
      if s.available = s.config.N then s.addMod s.readPos 1 else s.readPos := by
  unfold State.ringPush; split <;> simp

@[simp] theorem State.ringPush_available :
    (s.ringPush b).available = if s.available = s.config.N then s.available else s.available + 1 := by
  unfold State.ringPush; split <;> simp

@[simp] theorem State.ringPush_queue : (s.ringPush b).queue = s.queue := by
  unfold State.ringPush; split <;> simp

@[simp] theorem State.ringPush_inbox : (s.ringPush b).inbox = s.inbox := by
  unfold State.ringPush; split <;> simp

@[simp] theorem State.ringPush_responses : (s.ringPush b).responses = s.responses := by
  unfold State.ringPush; split <;> simp

@[simp] theorem State.ringPush_returned : (s.ringPush b).returned = s.returned := by
  unfold State.ringPush; split <;> simp

/-- Reading after a push: the pushed byte at the write cursor, every other byte as before. -/
theorem State.readByte_ringPush (a : Nat) :
    (s.ringPush b).readByte a =
      if a % s.config.N = s.writePos % s.config.N then b else s.readByte a := by
  rw [← State.readByte_writeByte]
  exact State.readByte_congr (by simp) (by simp) a

end Sys2Proof.Machine
end

