-- ==== Sys2Proof/Laws/Queue.lean ====
section
/-! SUPPORT. What the queue operations leave in each field. -/

namespace Sys2Proof.Machine

variable (s : State) (d : Descriptor)

/-- Q_ENQUEUE changes the queue and nothing else. -/
theorem State.enqueue_eq :
    s.enqueue d =
      s.setQueue ((if s.queue.length = s.config.Q then s.queue.tail else s.queue) ++ [d]) := by
  unfold State.enqueue; split <;> rfl

@[simp] theorem State.enqueue_config : (s.enqueue d).config = s.config := by simp [enqueue_eq]
@[simp] theorem State.enqueue_ring : (s.enqueue d).ring = s.ring := by simp [enqueue_eq]
@[simp] theorem State.enqueue_writePos : (s.enqueue d).writePos = s.writePos := by simp [enqueue_eq]
@[simp] theorem State.enqueue_readPos : (s.enqueue d).readPos = s.readPos := by simp [enqueue_eq]
@[simp] theorem State.enqueue_available : (s.enqueue d).available = s.available := by
  simp [enqueue_eq]
@[simp] theorem State.enqueue_inbox : (s.enqueue d).inbox = s.inbox := by simp [enqueue_eq]
@[simp] theorem State.enqueue_responses : (s.enqueue d).responses = s.responses := by
  simp [enqueue_eq]
@[simp] theorem State.enqueue_returned : (s.enqueue d).returned = s.returned := by
  simp [enqueue_eq]

@[simp] theorem State.enqueue_queue :
    (s.enqueue d).queue =
      (if s.queue.length = s.config.Q then s.queue.tail else s.queue) ++ [d] := by
  simp [enqueue_eq]

/-- Everything Q_DEQUEUE can do. -/
theorem State.dequeue_cases :
    (s.queue = [] ∧ s.dequeue = (sentinel, s)) ∨
    (∃ d rest, s.queue = d :: rest ∧ s.dequeue = (s.materialise d, s.setQueue rest)) := by
  unfold State.dequeue
  cases h : s.queue with
  | nil => simp
  | cons d rest => exact .inr ⟨d, rest, rfl, rfl⟩

/-- Q_DEQUEUE changes the queue and nothing else. -/
theorem State.dequeue_state : s.dequeue.2 = s.setQueue s.queue.tail := by
  rcases s.dequeue_cases with ⟨h, e⟩ | ⟨d, rest, h, e⟩
  · rw [e]
    cases s
    simp_all [State.setQueue]
  · simp [e, h]

end Sys2Proof.Machine
end

