-- ==== Sys2Proof/Laws/Scanner.lean ====
section
/-! SUPPORT. What a detector can answer and what a scan pass can do. -/

namespace Sys2Proof.Machine

/-- Everything RTCM3_DETECT can answer. -/
theorem State.rtcm3Detect_cases (s : State) (pos rem : Nat) :
    let payload := detectionLength (s.byteAt pos 1) (s.byteAt pos 2)
    (1023 < payload ∧ s.rtcm3Detect pos rem = .emit (framingError .rtcm3 pos .invalidLength) 1) ∨
    (payload ≤ 1023 ∧ rem < payload + 6 ∧ s.rtcm3Detect pos rem = .incomplete) ∨
    (payload ≤ 1023 ∧ payload + 6 ≤ rem ∧
      s.rtcm3Detect pos rem =
        .emit (framed .rtcm3 pos (payload + 6) (s.rtcm3Validate pos) .crcFail) (payload + 6)) := by
  intro payload
  simp only [State.rtcm3Detect, rtcmMaxPayload, rtcmOverhead]
  by_cases h₁ : 1023 < payload
  · exact .inl ⟨h₁, if_pos h₁⟩
  · by_cases h₂ : rem < payload + 6
    · exact .inr (.inl ⟨by omega, h₂, (if_neg h₁).trans (if_pos h₂)⟩)
    · exact .inr (.inr ⟨by omega, by omega, (if_neg h₁).trans (if_neg h₂)⟩)

/-- A stop found along a line lies inside the window and is the first one there. -/
theorem State.firstLineStop_some {s : State} {pos rem k : Nat}
    (h : s.firstLineStop pos rem = some k) :
    1 ≤ k ∧ k < rem ∧ k < 96 ∧ isLineStop (s.byteAt pos k) = true ∧
      ∀ j, 1 ≤ j → j < k → isLineStop (s.byteAt pos j) = false := by
  unfold State.firstLineStop at h
  rw [List.find?_range'_eq_some] at h
  obtain ⟨hstop, hmem, hfirst⟩ := h
  simp only [List.mem_range'_1, nmeaMax] at hmem
  exact ⟨by omega, by omega, by omega, hstop, fun j h₁ h₂ => by simpa using hfirst j h₁ h₂⟩

/-- Everything NMEA_DETECT can answer. -/
theorem State.nmeaDetect_cases (s : State) (pos rem : Nat) :
    (∃ k, s.firstLineStop pos rem = some k ∧ s.byteAt pos k = nmeaTerm ∧
      s.nmeaDetect pos rem =
        .emit (framed .nmea pos (k + 1) (s.nmeaValidate pos (k + 1)) .checksumFail) (k + 1)) ∨
    (∃ k, s.firstLineStop pos rem = some k ∧ s.byteAt pos k ≠ nmeaTerm ∧
      s.nmeaDetect pos rem = .skip) ∨
    (s.firstLineStop pos rem = none ∧ 96 ≤ rem ∧
      s.nmeaDetect pos rem = .emit (framingError .nmea pos .tooLong) 1) ∨
    (s.firstLineStop pos rem = none ∧ rem < 96 ∧ s.nmeaDetect pos rem = .incomplete) := by
  unfold State.nmeaDetect
  cases h : s.firstLineStop pos rem with
  | some k =>
    by_cases ht : s.byteAt pos k = nmeaTerm
    · exact .inl ⟨k, rfl, ht, by simp [ht]⟩
    · exact .inr (.inl ⟨k, rfl, ht, by simp [ht]⟩)
  | none =>
    by_cases hr : nmeaMax ≤ rem
    · exact .inr (.inr (.inl ⟨rfl, hr, by simp [hr]⟩))
    · exact .inr (.inr (.inr ⟨rfl, by simpa [nmeaMax] using hr, by simp [hr]⟩))

/-- The verdict on a position depends on the storage and the parameters alone. -/
theorem State.classify_congr {s t : State} (hc : s.config = t.config) (hr : s.ring = t.ring)
    (pos rem : Nat) : s.classify pos rem = t.classify pos rem := by
  have hb := State.byteAt_congr hc hr
  have hspan := State.span_congr hc hr
  have hv : s.rtcm3Validate pos = t.rtcm3Validate pos := by
    simp [State.rtcm3Validate, State.crc24q, State.receivedCrc, hb, hspan]
  have hn : ∀ len, s.nmeaValidate pos len = t.nmeaValidate pos len := by
    intro len
    simp [State.nmeaValidate, State.firstStar, State.nmeaXor, hb]
  simp [State.classify, State.rtcm3Detect, State.nmeaDetect, State.firstLineStop,
    State.readByte_congr hc hr, hb, hv, hn]

/-- One turn of the scan loop: what SCAN_PASS does at a position. -/
theorem scanLoop_succ (fuel : Nat) (s : State) (pos rem : Nat) :
    scanLoop (fuel + 1) s pos rem =
      if rem < 6 then (s, pos, rem)
      else
        match s.classify pos rem with
        | .incomplete => (s, pos, rem)
        | .skip => scanLoop fuel s (s.addMod pos 1) (rem - 1)
        | .emit d adv => scanLoop fuel (s.enqueue d) (s.addMod pos adv) (rem - adv) := rfl

/-- The loop changes the queue and nothing else. -/
theorem scanLoop_state (fuel : Nat) (s : State) (pos rem : Nat) :
    (scanLoop fuel s pos rem).1 = s.setQueue (scanLoop fuel s pos rem).1.queue := by
  induction fuel generalizing s pos rem with
  | zero => rfl
  | succ fuel ih =>
    rw [scanLoop_succ]
    split
    · rfl
    · split
      · rfl
      · exact ih s _ _
      · rename_i d adv _
        rw [ih (s.enqueue d)]
        simp [State.enqueue_eq, State.setQueue]

/-- A pass changes the queue, `read_pos` and `available`, and nothing else. -/
theorem State.scanPass_eq (s : State) :
    s.scanPass =
      ((s.setQueue s.scanPass.queue).setReadPos s.scanPass.readPos).setAvailable
        s.scanPass.available := by
  unfold State.scanPass State.commit
  simp only
  rw [scanLoop_state]
  rfl

@[simp] theorem State.scanPass_config (s : State) : s.scanPass.config = s.config := by
  rw [scanPass_eq]; rfl
@[simp] theorem State.scanPass_ring (s : State) : s.scanPass.ring = s.ring := by
  rw [scanPass_eq]; rfl
@[simp] theorem State.scanPass_writePos (s : State) : s.scanPass.writePos = s.writePos := by
  rw [scanPass_eq]; rfl
@[simp] theorem State.scanPass_inbox (s : State) : s.scanPass.inbox = s.inbox := by
  rw [scanPass_eq]; rfl
@[simp] theorem State.scanPass_responses (s : State) : s.scanPass.responses = s.responses := by
  rw [scanPass_eq]; rfl
@[simp] theorem State.scanPass_returned (s : State) : s.scanPass.returned = s.returned := by
  rw [scanPass_eq]; rfl

end Sys2Proof.Machine
end

