-- ==== Sys2Proof/Laws/Commands.lean ====
section
/-! SUPPORT. What one PUSH and a run of PUSHes leave in the fields a scan pass does not write, and
what a step does with the host's oldest input. -/

namespace Sys2Proof.Machine

section Push
variable (s : State) (b : Byte)

@[simp] theorem State.push_config : (s.push b).config = s.config := by
  simp [State.push, State.respondReady]
@[simp] theorem State.push_ring :
    (s.push b).ring = s.ring.store (s.writePos % s.config.N) b := by
  simp [State.push, State.respondReady]
@[simp] theorem State.push_writePos : (s.push b).writePos = s.addMod s.writePos 1 := by
  simp [State.push, State.respondReady]
@[simp] theorem State.push_readPos :
    (s.push b).readPos = (s.ringPush b).scanPass.readPos := rfl
@[simp] theorem State.push_available :
    (s.push b).available = (s.ringPush b).scanPass.available := rfl
@[simp] theorem State.push_queue : (s.push b).queue = (s.ringPush b).scanPass.queue := rfl
@[simp] theorem State.push_inbox : (s.push b).inbox = s.inbox := by
  simp [State.push, State.respondReady]
@[simp] theorem State.push_returned : (s.push b).returned = s.returned := by
  simp [State.push, State.respondReady]

end Push

@[simp] theorem State.pushAll_nil (s : State) : s.pushAll [] = s := rfl
@[simp] theorem State.pushAll_cons (s : State) (b : Byte) (bs : List Byte) :
    s.pushAll (b :: bs) = (s.push b).pushAll bs := rfl
theorem State.pushAll_append (s : State) (bs cs : List Byte) :
    s.pushAll (bs ++ cs) = (s.pushAll bs).pushAll cs := List.foldl_append

/-- Everything a step can do with the host's oldest input. -/
theorem step_cases (s : State) :
    (s.inbox = [] ∧ step s = .next s) ∨
    (∃ w₁ w₂ rest, s.inbox = .overlapping w₁ w₂ :: rest ∧ step s = .refused .overlappingCommands) ∨
    (∃ w rest, s.inbox = .command w :: rest ∧ step s = exec (decode w) (s.setInbox rest)) := by
  rcases s.fetch_cases with ⟨h, e⟩ | ⟨w₁, w₂, rest, h, e⟩ | ⟨w, rest, h, e⟩
  · exact .inl ⟨h, by simp [step, e]⟩
  · exact .inr (.inl ⟨w₁, w₂, rest, h, by simp [step, e]⟩)
  · exact .inr (.inr ⟨w, rest, h, by simp [step, e]⟩)

/-- The four commands a word can decode to. -/
theorem decode_cases (w : CommandWord) :
    decode w = .push (dataField w) ∨ decode w = .hasMessage (dataField w) ∨
    decode w = .nextMessage (dataField w) ∨ decode w = .reset (dataField w) := by
  unfold decode
  split
  · exact .inl rfl
  · split
    · exact .inr (.inl rfl)
    · split
      · exact .inr (.inr (.inl rfl))
      · exact .inr (.inr (.inr rfl))

end Sys2Proof.Machine
end

