-- ==== Sys2Proof/Laws/PerInstr.lean ====
section
/-! SUPPORT. Statements for every instruction as syntax, one lemma a constructor: a command has one
word, a pseudo-command one word a byte, an internal operation none (`30_encoding.md` R77, R78, R80). -/

namespace Sys2Proof.Laws.WordCount

/-- An instruction has as many words as commands it stands for, or none at all. -/
def Statement (i : Instr) : Prop :=
  match encode i with
  | some words => words.length = (expand i).length
  | none => expand i = []

theorem push (b : Byte) : Statement (.push b) := rfl
theorem hasMessage (x : Byte) : Statement (.hasMessage x) := rfl
theorem nextMessage (x : Byte) : Statement (.nextMessage x) := rfl
theorem reset (x : Byte) : Statement (.reset x) := rfl
theorem pushs (text : List StringPart) : Statement (.pushs text) := by
  simp [Statement, encode, expand]
theorem pushb (bytes : List Byte) : Statement (.pushb bytes) := by
  simp [Statement, encode, expand]
theorem rbPush (b : Byte) : Statement (.rbPush b) := rfl
theorem rbReadAt (offset : Nat) : Statement (.rbReadAt offset) := rfl
theorem rbAdvanceRead (n : Nat) : Statement (.rbAdvanceRead n) := rfl
theorem rbSetRead (p : Nat) : Statement (.rbSetRead p) := rfl
theorem rbSetAvailable (n : Nat) : Statement (.rbSetAvailable n) := rfl
theorem crcTableEntry (i : Byte) : Statement (.crcTableEntry i) := rfl
theorem crc24q (p n : Nat) : Statement (.crc24q p n) := rfl
theorem rtcm3Validate (p : Nat) : Statement (.rtcm3Validate p) := rfl
theorem nmeaHexval (c : Byte) : Statement (.nmeaHexval c) := rfl
theorem nmeaXor (p a b : Nat) : Statement (.nmeaXor p a b) := rfl
theorem nmeaValidate (p len : Nat) : Statement (.nmeaValidate p len) := rfl
theorem rtcm3Detect (pos rem : Nat) : Statement (.rtcm3Detect pos rem) := rfl
theorem nmeaDetect (pos rem : Nat) : Statement (.nmeaDetect pos rem) := rfl
theorem scanPass : Statement .scanPass := rfl
theorem qEnqueue (d : Descriptor) : Statement (.qEnqueue d) := rfl
theorem qEvict : Statement .qEvict := rfl
theorem qDequeue : Statement .qDequeue := rfl
theorem qHas : Statement .qHas := rfl

end Sys2Proof.Laws.WordCount
end

