-- ==== Sys2Proof/Tests/Slice0.lean ====
section
/-! SUPPORT. The model's own tests: ill-formed terms refused, words written out from the encoding
tables, one-step tests whose expected values stand in `95_test_vectors.md` (the vector is named), and
for every statement with hypotheses a concrete case that meets them. -/

open Sys2Proof Sys2Proof.Machine

namespace Sys2Proof.Tests

/-! ## Helpers -/

/-- Parameters for a test: `N` and `Q`, each one more than given. -/
def params (n q : Nat) : Config.Params :=
  { N := n + 1, Q := q + 1, N_pos := Nat.le_add_left 1 n, Q_pos := Nat.le_add_left 1 q }

/-- Bytes stored from index 0 on. -/
def cells (bytes : List Byte) : Memory := bytes.zipIdx.map fun x => (x.2, x.1)

/-- A state with the given parameters, storage and cursors. -/
def mk (p : Config.Params) (bytes : List Byte) (w r a : Nat) (q : List Descriptor) : State :=
  { State.powerOn p with ring := cells bytes, writePos := w, readPos := r, available := a, queue := q }

/-- The next state passes the check. -/
def nextIs (o : Host.Outcome State Fault Refusal) (check : State → Bool) : Bool :=
  match o with
  | .next t => check t
  | .fault _ => false
  | .refused _ => false

/-- The outcome is a refusal of this name. -/
def refusedAs (o : Host.Outcome State Fault Refusal) (r : Refusal) : Bool :=
  match o with
  | .refused r' => r' == r
  | .next _ => false
  | .fault _ => false

/-- What the registers of the ring hold: write cursor, read cursor, live count. -/
def cursors (t : State) : Nat × Nat × Nat := (t.writePos, t.readPos, t.available)

/-- The sentence of vector N1, `$*00` and its line end. -/
def sentence : List Byte := [0x24, 0x2A, 0x30, 0x30, 0x0D, 0x0A]

/-- The frame of vector D7. -/
def frame : List Byte := [0xD3, 0x00, 0x01, 0xAB, 0x98, 0x96, 0x0F]

/-- The descriptor of vector Q5. -/
def tooLongDescriptor : Descriptor := ⟨.nmea, 0, 0, false, .tooLong⟩

/-! ## Ill-formed terms are refused -/

theorem test_wf_string_quote : (Instr.pushs [.char 0x22]).wf = false := by decide
theorem test_wf_string_backslash : (Instr.pushs [.char 0x5C]).wf = false := by decide
theorem test_wf_string_control : (Instr.pushs [.char 0x1F]).wf = false := by decide
theorem test_wf_string_not_ascii : (Instr.pushs [.char 0x7F]).wf = false := by decide
theorem test_wf_pushb_empty : (Instr.pushb []).wf = false := by decide
theorem test_wf_crc_count : (Instr.crc24q 0 1027).wf = false := by decide
theorem test_wf_xor_range : (Instr.nmeaXor 0 2 1).wf = false := by decide
theorem test_wf_sentence_short : (Instr.nmeaValidate 0 1).wf = false := by decide
theorem test_wf_sentence_long : (Instr.nmeaValidate 0 97).wf = false := by decide
theorem test_wf_rtcm_rem : (Instr.rtcm3Detect 0 5).wf = false := by decide
theorem test_wf_nmea_rem : (Instr.nmeaDetect 0 5).wf = false := by decide
theorem test_wf_descriptor_unknown : (Descriptor.mk .unknown 0 6 true .none).wf = false := by decide
theorem test_wf_descriptor_sentinel : (Descriptor.mk .nmea 0 0 false .noMessage).wf = false := by
  decide
theorem test_wf_descriptor_length : (Descriptor.mk .rtcm3 0 1030 true .none).wf = false := by decide
theorem test_wf_descriptor_valid : (Descriptor.mk .rtcm3 0 6 true .crcFail).wf = false := by decide

/-! ## Words of the encoding tables (`30_encoding.md` R72, R80; L2.9) -/

theorem test_decode_push : decode 0b0011010011#10 = .push 0xD3 := by decide
theorem test_decode_has_message : decode 0b0110100101#10 = .hasMessage 0xA5 := by decide
theorem test_decode_next_message : decode 0b1000000000#10 = .nextMessage 0x00 := by decide
theorem test_decode_reset : decode 0b1111111111#10 = .reset 0xFF := by decide
theorem test_encode_push : encode (.push 0x24) = some [0x024#10] := by decide
theorem test_encode_reset : encode (.reset 0x00) = some [0x300#10] := by decide
theorem test_encode_pushs :
    encode (.pushs [.char 0x24, .escR, .escN, .escBackslash, .escHex 0xFE]) =
      some [0x024#10, 0x00D#10, 0x00A#10, 0x05C#10, 0x0FE#10] := by decide
theorem test_encode_pushb : encode (.pushb [0xD3, 0x00]) = some [0x0D3#10, 0x000#10] := by decide
theorem test_encode_internal : encode .scanPass = none := by decide
theorem test_decode_table_word : decodeTableWord 16 0x2FF = some (.nextMessage 0xFF) := by decide
theorem test_decode_table_word_wide : decodeTableWord 16 0x400 = none := by decide

/-! ## The assembler (`30_encoding.md` R79, R80) -/

theorem test_asm_push_char : asmLine "  push '$' ; start".toList = .ok (some (.push 0x24)) := by decide
theorem test_asm_push_decimal : asmLine "PUSH 255".toList = .ok (some (.push 0xFF)) := by decide
/-- The three characters R79 shows in single quotes. -/
theorem test_asm_quoted : asmLine "PUSHB '$', '\\r', '\\n'".toList =
    .ok (some (.pushb [0x24, 0x0D, 0x0A])) := by decide
/-- The model's choice (log entry 16): a backslash or a single quote alone in single quotes stands for
itself, and no other escape is read there. -/
theorem test_asm_quoted_choices :
    asmLine "PUSHB '\\', '''".toList = .ok (some (.pushb [0x5C, 0x27])) ∧
    asmLine "PUSH '\\\\'".toList = .error .badOperand ∧
    asmLine "PUSH '\\x24'".toList = .error .badOperand := by decide
theorem test_asm_push_too_big : asmLine "PUSH 256".toList = .error .badOperand := by decide
/-- That the semicolon in the quotes begins no comment is the model's choice (log entry 16). -/
theorem test_asm_pushs :
    asmLine "PUSHS \"$;\\r\\n\" ; x".toList =
      .ok (some (.pushs [.char 0x24, .char 0x3B, .escR, .escN])) := by decide
/-- Where the blanks stand, before a comma and not after one, is the model's choice (log entry 16). -/
theorem test_asm_pushb :
    asmLine " PUSHB 'A' ,0xD3, 7 ".toList = .ok (some (.pushb [0x41, 0xD3, 0x07])) := by decide
theorem test_asm_program :
    assemble "RESET\n; a comment\nPUSH '\\n'\nHAS_MESSAGE\nNEXT_MESSAGE".toList =
      .ok [0x300#10, 0x00A#10, 0x100#10, 0x200#10] := by decide

/-! ## Fetch and step -/

theorem test_step_idle : nextIs (step State.reset) (· == State.reset) = true := by decide
theorem test_step_push :
    nextIs (step (State.reset.withFetchWord 16 0x024)) (fun t => t.inbox == [] && t.available == 1 &&
      t.responses == [.msgReady false]) = true := by decide
theorem test_step_overlap :
    refusedAs (step (State.reset.setInbox [.overlapping 0x024 0x300])) .overlappingCommands = true := by
  decide

/-! ## Commands (vectors M1, Q2, L2.9, P1, P2, P4, and the examples of `44_interface.md`) -/

/-- Five bytes of the sentence received; the terminator is missing (P1 after command 6). -/
def waiting : State := mk (params 15 1) (sentence.take 5) 5 0 5 []

/-- P1 after command 7. -/
def received : State := mk (params 15 1) sentence 6 6 0 [⟨.nmea, 0, 6, true, .none⟩]

/-- P1, command 7. -/
theorem test_push_completes_sentence :
    nextIs (exec (.push 0x0A) waiting) (fun t => cursors t == (6, 6, 0) &&
      t.queue == received.queue && t.responses == [.msgReady true]) = true := by decide

/-- P2, command 11: the frame wraps from index 7 to index 0. -/
theorem test_push_completes_wrapped_frame :
    nextIs (exec (.push 0x0F) (mk (params 7 1) [0x96, 0x42, 0x43, 0xD3, 0x00, 0x01, 0xAB, 0x98] 1 3 6 []))
      (fun t => cursors t == (2, 2, 0) && t.queue == [⟨.rtcm3, 3, 7, true, .none⟩]) = true := by decide

/-- L2.9: the reset state has no message. -/
theorem test_has_message_on_reset :
    nextIs (exec (.hasMessage 0xA5) State.reset) (·.responses == [.msgReady false]) = true := by decide
/-- P1, command 8. -/
theorem test_has_message_after_sentence :
    nextIs (exec (.hasMessage 0) received) (fun t => t.responses == [.msgReady true] &&
      t.queue == received.queue) = true := by decide
/-- P1, command 9. -/
theorem test_next_message :
    nextIs (exec (.nextMessage 0) received) (fun t => t.queue == [] &&
      t.responses == [.message 0xA00006 sentence]) = true := by decide
/-- P4, command 4: the first byte of the span was overwritten. -/
theorem test_next_message_stale :
    nextIs (exec (.nextMessage 0) (mk (params 15 3) (0x41 :: sentence.drop 1) 1 12 5 received.queue))
      (·.responses == [.message 0xA00006 [0x41, 0x2A, 0x30, 0x30, 0x0D, 0x0A]]) = true := by decide
/-- P1, command 10. -/
theorem test_next_message_sentinel :
    nextIs (exec (.nextMessage 0) State.reset) (·.responses == [.message 0x140000 []]) = true := by decide
/-- The example of R216. -/
theorem test_reset :
    nextIs (exec (.reset 0xFF) (mk (params 7 0) [0x10, 0x20] 5 3 2 [tooLongDescriptor]))
      (fun t => cursors t == (0, 0, 0) && t.queue == [] && t.ring == cells [0x10, 0x20]) = true := by
  decide
/-- L2.1: with `N = 4`, five bytes through PUSH. -/
theorem test_pushs :
    nextIs (exec (.pushs [.char 0x41, .char 0x42, .char 0x43, .char 0x44, .char 0x45])
      (State.powerOn (params 3 0)))
      (fun t => cursors t == (1, 1, 4) && t.ring == cells [0x45, 0x42, 0x43, 0x44]) = true := by decide
/-- L2.1: with `N = 1`, two bytes through PUSH. -/
theorem test_pushb :
    nextIs (exec (.pushb [0x41, 0x42]) (State.powerOn (params 0 0)))
      (fun t => cursors t == (0, 0, 1) && t.ring == [(0, 0x42)]) = true := by decide

/-! ## Ring buffer operations (vectors B1, B3, B5, B6, B7, B9, B10) -/

theorem test_rb_push :
    nextIs (exec (.rbPush 0x41) (mk (params 3 0) [] 3 3 0 []))
      (fun t => cursors t == (0, 3, 1) && t.ring == [(3, 0x41)]) = true := by decide
theorem test_rb_push_full :
    nextIs (exec (.rbPush 0x45) (mk (params 3 0) [0x41, 0x42, 0x43, 0x44] 0 0 4 []))
      (fun t => cursors t == (1, 1, 4) && t.ring == cells [0x45, 0x42, 0x43, 0x44]) = true := by decide
/-- B5's start. -/
def fourBytes : State := mk (params 3 0) [0x10, 0x20, 0x30, 0x40] 1 3 2 []
theorem test_rb_read_at :
    nextIs (exec (.rbReadAt 1) fourBytes) (·.returned == .byte 0x10) = true := by decide
theorem test_rb_read_at_refused :
    refusedAs (exec (.rbReadAt 2) fourBytes) .readAtOutsideLive = true := by decide
theorem test_rb_advance_read :
    nextIs (exec (.rbAdvanceRead 3) (mk (params 7 0) [] 3 6 5 [])) (cursors · == (3, 1, 2)) = true := by
  decide
theorem test_rb_advance_read_refused :
    refusedAs (exec (.rbAdvanceRead 6) (mk (params 7 0) [] 3 6 5 [])) .advanceBeyondLive = true := by
  decide
theorem test_rb_set_read :
    nextIs (exec (.rbSetRead 5) (State.powerOn (params 7 0))) (cursors · == (0, 5, 0)) = true := by decide
theorem test_rb_set_available :
    nextIs (exec (.rbSetAvailable 2) (State.powerOn (params 7 0))) (cursors · == (0, 0, 2)) = true := by
  decide

/-! ## Validators (L2.2, L2.3, L2.4) -/

/-- The state of L2.2's wrap-around example: the frame of D7 at indices 3, 4, 5, 6, 7, 0, 1. -/
def wrapped : State := mk (params 7 0) [0x96, 0x0F, 0x43, 0xD3, 0x00, 0x01, 0xAB, 0x98] 2 2 0 []

theorem test_crc_table_entry :
    nextIs (exec (.crcTableEntry 0x80) State.reset) (·.returned == .crc 0x3347A4) = true := by decide
theorem test_crc_table_entry_last :
    nextIs (exec (.crcTableEntry 0xFF) State.reset) (·.returned == .crc 0xDD8538) = true := by decide
theorem test_crc24q_wraps :
    nextIs (exec (.crc24q 3 4) wrapped) (·.returned == .crc 0x98960F) = true := by decide
theorem test_crc24q_digits :
    crcOfBytes [0x31, 0x32, 0x33, 0x34, 0x35, 0x36, 0x37, 0x38, 0x39] = 0xCDE703 := by decide
set_option maxRecDepth 8000 in
theorem test_crc_bitwise : crcOfBytesBitwise [0xD3#8, 0x00, 0x01, 0xAB] = 0x98960F := by decide
theorem test_rtcm3_validate :
    nextIs (exec (.rtcm3Validate 3) wrapped) (·.returned == .bit true) = true := by decide
theorem test_rtcm3_validate_bad :
    nextIs (exec (.rtcm3Validate 3) (wrapped.writeByte 1 0x0E)) (·.returned == .bit false) = true := by
  decide
theorem test_nmea_hexval_lower :
    nextIs (exec (.nmeaHexval 0x66) State.reset) (·.returned == .digit (some 15)) = true := by decide
theorem test_nmea_hexval_none :
    nextIs (exec (.nmeaHexval 0x47) State.reset) (·.returned == .digit none) = true := by decide
/-- The bytes of vector N3. -/
def abSentence : State := mk (params 15 0) [0x24, 0x41, 0x42, 0x2A, 0x30, 0x33, 0x0D, 0x0A] 8 0 8 []
theorem test_nmea_xor :
    nextIs (exec (.nmeaXor 0 1 3) abSentence) (·.returned == .byte 0x03) = true := by decide
theorem test_nmea_xor_empty :
    nextIs (exec (.nmeaXor 0 1 1) abSentence) (·.returned == .byte 0x00) = true := by decide
theorem test_nmea_validate :
    nextIs (exec (.nmeaValidate 0 8) abSentence) (·.returned == .bit true) = true := by decide
/-- N14: the star stands too late. -/
theorem test_nmea_validate_late_star :
    nextIs (exec (.nmeaValidate 0 6) (mk (params 15 0) [0x24, 0x41, 0x42, 0x2A, 0x0D, 0x0A] 6 0 6 []))
      (·.returned == .bit false) = true := by decide

/-! ## Detectors and the scan pass (L2.5, L2.6, L2.7) -/

/-- D4: the length is 1024. -/
theorem test_rtcm3_detect_length :
    nextIs (exec (.rtcm3Detect 0 6) (mk (params 15 0) [0xD3, 0x04, 0x00, 0x11, 0x22, 0x33] 6 0 6 []))
      (·.returned == .verdict (.emit ⟨.rtcm3, 0, 0, false, .invalidLength⟩ 1)) = true := by decide
/-- D6: one byte short. -/
theorem test_rtcm3_detect_incomplete :
    nextIs (exec (.rtcm3Detect 0 6) (mk (params 15 0) frame 6 0 6 []))
      (·.returned == .verdict .incomplete) = true := by decide
/-- The example of R162: a marker at offset 6. -/
theorem test_nmea_detect_restart :
    nextIs (exec (.nmeaDetect 0 9)
      (mk (params 15 0) [0x24, 0x47, 0x50, 0x47, 0x47, 0x41, 0x24, 0x47, 0x50] 9 0 9 []))
      (·.returned == .verdict .skip) = true := by decide
/-- M9's last pass: 96 bytes with no terminator are too long. -/
theorem test_nmea_detect_too_long :
    nextIs (exec (.nmeaDetect 0 96) (mk (params 127 0) (0x24 :: List.replicate 95 0x41) 96 0 96 []))
      (·.returned == .verdict (.emit tooLongDescriptor 1)) = true := by decide
/-- The example of R170. -/
theorem test_scan_pass_skips :
    nextIs (exec .scanPass (mk (params 15 0) [0x41, 0x42, 0x43, 0x44, 0x45, 0x46] 6 0 6 []))
      (cursors · == (6, 1, 5)) = true := by decide
/-- R175: the micro-states end where SCAN_PASS does. -/
theorem test_micro_run :
    (microRun 8 ⟨.seed, 0, 0, mk (params 15 1) sentence 6 0 6 []⟩).block =
      (mk (params 15 1) sentence 6 0 6 []).scanPass := by decide

/-! ## Message queue (L2.8) -/

/-- Q1. -/
theorem test_q_enqueue_full :
    nextIs (exec (.qEnqueue tooLongDescriptor)
      (mk (params 7 1) [] 0 0 0 [⟨.nmea, 1, 6, true, .none⟩, ⟨.nmea, 2, 6, true, .none⟩]))
      (·.queue == [⟨.nmea, 2, 6, true, .none⟩, tooLongDescriptor]) = true := by decide
theorem test_q_evict :
    nextIs (exec .qEvict (mk (params 7 1) [] 3 1 2 [tooLongDescriptor, ⟨.nmea, 2, 6, true, .none⟩]))
      (fun t => t.queue == [⟨.nmea, 2, 6, true, .none⟩] && cursors t == (3, 1, 2)) = true := by decide
/-- R192's `require` on an empty queue, with R14 (log entry 7). -/
theorem test_q_evict_empty : refusedAs (exec .qEvict State.reset) .evictFromEmptyQueue = true := by
  decide
/-- Q7: the span wraps. -/
theorem test_q_dequeue_wraps :
    nextIs (exec .qDequeue (wrapped.setQueue [⟨.rtcm3, 3, 7, true, .none⟩]))
      (fun t => t.queue == [] &&
        t.returned == .message ⟨.rtcm3, 7, true, .none, frame⟩) = true := by decide
/-- Q4. -/
theorem test_q_dequeue_empty :
    nextIs (exec .qDequeue State.reset)
      (·.returned == .message ⟨.unknown, 0, false, .noMessage, []⟩) = true := by decide
/-- Q5. -/
theorem test_q_has :
    nextIs (exec .qHas (mk (params 7 1) [] 0 0 0 [tooLongDescriptor])) (·.returned == .bit true) = true := by
  decide

/-! ## Every statement's hypotheses can be met -/

theorem witness_decode_and_encode : encode (.pushb [0x01, 0x02]) = some [0x001#10, 0x002#10] ∧
    expand (.reset 0x07) = [.reset 0x07] := by decide

/-- IgnoredFieldHasNoEffect, StepRunsTheDecodedCommand, EveryCommandCompletes. -/
theorem witness_command_waiting : (0b01#2 : BitVec 2) ≠ 0b00#2 ∧
    (State.reset.setInbox [.command (0b01#2 ++ 0xA5#8)]).inbox = [.command (0b01#2 ++ 0xA5#8)] ∧
    State.reset.inbox = [] ∧
    (State.reset.setInbox [.overlapping 0x024 0x300]).inbox = [.overlapping 0x024 0x300] := by decide

/-- AssemblerReadsBackWhatItWrites: every instruction the syntax can write. -/
theorem witness_assembler : ((Instr.pushb [0xD3]).wf = true ∧
      showLine (.pushb [0xD3]) = some "PUSHB 0xD3".toList) ∧
    ((Instr.push 0x24).wf = true ∧ showLine (.push 0x24) = some "PUSH 0x24".toList) ∧
    ((Instr.hasMessage 0).wf = true ∧ showLine (.hasMessage 0) = some "HAS_MESSAGE".toList) ∧
    ((Instr.nextMessage 0).wf = true ∧ showLine (.nextMessage 0) = some "NEXT_MESSAGE".toList) ∧
    ((Instr.reset 0).wf = true ∧ showLine (.reset 0) = some "RESET".toList) := by decide

/-- AssemblerReadsBackWhatItWrites on the lines that rest on log entries 16 and 17: a semicolon in
the string, the first and the last character that stand unescaped, every escape, and no item. -/
theorem witness_assembler_string :
    ((Instr.pushs [.char 0x20, .char 0x3B, .char 0x7E, .escR, .escN, .escBackslash,
        .escHex 0x80]).wf = true ∧
      showLine (.pushs [.char 0x20, .char 0x3B, .char 0x7E, .escR, .escN, .escBackslash,
        .escHex 0x80]) = some "PUSHS \" ;~\\r\\n\\\\\\x80\"".toList) ∧
    ((Instr.pushs []).wf = true ∧ showLine (.pushs []) = some "PUSHS \"\"".toList) := by decide

/-- The header table of `95_test_vectors.md`: every protocol and reason the block answers with. -/
theorem test_header_words :
    [headerWord ⟨.rtcm3, 25, true, .none, []⟩, headerWord ⟨.rtcm3, 25, false, .crcFail, []⟩,
      headerWord ⟨.rtcm3, 0, false, .invalidLength, []⟩, headerWord ⟨.nmea, 67, true, .none, []⟩,
      headerWord ⟨.nmea, 67, false, .checksumFail, []⟩, headerWord ⟨.nmea, 0, false, .tooLong, []⟩,
      headerWord sentinel] =
    [0x600019, 0x480019, 0x440000, 0xA00043, 0x900043, 0x8C0000, 0x140000] := by decide

/-- HeaderWordRoundTrip: the longest message, and an invalid one of length 0. -/
theorem witness_header : (OutputMessage.mk .nmea 0 false .tooLong []).length ≤ 1029 ∧
    (OutputMessage.mk .rtcm3 1029 true .none []).length ≤ 1029 ∧
    decodeHeader 0x600405#24 = .ok ⟨.rtcm3, true, .none, 1029⟩ := by decide

theorem witness_pseudo_command : encode (.pushb [0x41]) = some [0x041#10] ∧
    (State.reset.setInbox ([0x041#10].map .command ++ [.command 0x100])).inbox =
      [0x041#10].map .command ++ [.command 0x100] := by decide

/-- A safe state that is about to receive the terminator of a sentence. -/
def aboutToFrame : State := waiting.setInbox [.command 0x00A]

theorem witness_step_frames : RingOk aboutToFrame ∧ ReadsWritten aboutToFrame ∧
    ∃ t, step aboutToFrame = .next t := ⟨by decide, by decide, _, rfl⟩

theorem witness_safe_state : SafeState aboutToFrame ∧ ∃ t, step aboutToFrame = .next t :=
  ⟨⟨by decide, by decide, by decide, by decide, by decide, fun _ h => absurd h List.not_mem_nil⟩,
    _, rfl⟩

theorem witness_safe_state_with_message :
    SafeState (received.setInbox [.command 0x200]) ∧
      ∃ t, step (received.setInbox [.command 0x200]) = .next t :=
  ⟨⟨by decide, by decide, by decide, by decide, by decide, fun _ h => absurd h List.not_mem_nil⟩,
    _, rfl⟩

/-- The same state with another power-on byte at an index nobody wrote. -/
theorem witness_power_on_contents :
    SameButPowerOn aboutToFrame (aboutToFrame.writeByte 9 0x77) ∧
      aboutToFrame ≠ aboutToFrame.writeByte 9 0x77 := by
  refine ⟨⟨rfl, fun a b h => ?_⟩, by decide⟩
  have unwritten : aboutToFrame.ring.find 9 = none := by decide
  have hne : a ≠ 9 := by
    rintro rfl
    simp [unwritten] at h
  exact (Memory.find_store_ne _ _ hne).trans h

theorem witness_parameters_and_storage : (∃ t, exec (.reset 0) received = .next t) ∧
    (∀ b, Instr.reset 0 ≠ .push b) ∧ (∀ x, Instr.reset 0 ≠ .pushs x) ∧
    (∀ x, Instr.reset 0 ≠ .pushb x) ∧ ∀ b, Instr.reset 0 ≠ .rbPush b :=
  ⟨⟨_, rfl⟩, by simp, by simp, by simp, by simp⟩

theorem witness_next_message : State.reset.queue = [] ∧
    received.queue = [⟨.nmea, 0, 6, true, .none⟩] ∧
    (Descriptor.mk .nmea 0 6 true .none).wf = true := by decide

/-- PushMovesTheReadCursorByWhatItConsumed: a ring with room and a full one. -/
theorem witness_push_ring : RingOk waiting ∧
    RingOk (mk (params 3 0) [0x41, 0x42, 0x43, 0x44] 0 0 4 []) := by decide

theorem witness_push_full_queue :
    let s := mk (params 15 0) sentence 6 6 0 [tooLongDescriptor]
    s.queue.length = s.config.Q := by decide

theorem witness_queued_validity : ∃ t, exec (.push 0x0A) waiting = .next t ∧
    (⟨.nmea, 0, 6, true, .none⟩ : Descriptor) ∈ t.queue := ⟨_, rfl, by decide⟩

/-- PushbStoresItsBytesInOrder, PushsPushesTheBytesOfItsString: as many bytes as the ring holds. -/
theorem witness_pushb : (mk (params 3 0) [] 3 3 0 []).writePos < 4 ∧
    ([0x41, 0x42, 0x43, 0x44] : List Byte).length ≤ (params 3 0).N := by decide

theorem frame_is_rtcm_frame : IsRtcmFrame frame := by
  refine ⟨0x00, 0x01, [0xAB], ?_, by decide, by decide⟩
  rw [test_crc_bitwise]
  decide

theorem witness_rtcm_frame :
    let s := mk (params 6 0) [] 3 3 0 []
    RingOk s ∧ s.available = 0 ∧ s.queue = [] ∧ IsRtcmFrame frame ∧ frame.length ≤ s.config.N :=
  ⟨by decide, rfl, rfl, frame_is_rtcm_frame, by decide⟩

theorem sentence_is_nmea_sentence : IsNmeaSentence sentence :=
  ⟨0x24, [], 0x30, 0x30, [0x0D], 0, 0, by decide, by decide, by decide, by decide, by decide,
    by decide, by decide, by decide⟩

theorem witness_nmea_sentence :
    let s := mk (params 5 0) [] 3 3 0 []
    RingOk s ∧ s.available = 0 ∧ s.queue = [] ∧ IsNmeaSentence sentence ∧ 6 ≤ sentence.length ∧
      sentence.length ≤ s.config.N :=
  ⟨by decide, rfl, rfl, sentence_is_nmea_sentence, by decide, by decide⟩

theorem witness_marker_free :
    let s := mk (params 5 0) [] 3 3 0 [tooLongDescriptor]
    RingOk s ∧ s.available = 0 ∧
      ∀ b ∈ ([0x41, 0x42, 0x0A] : List Byte), b ≠ rtcmPreamble ∧ isNmeaStart b = false := by decide

theorem witness_small_ring :
    let s := mk (params 4 0) (sentence.take 5) 0 0 5 []
    s.config.N < 6 ∧ s.available ≤ s.config.N := by decide

/-- StaleDataHorizon: H1's ten further PUSHes, the last that leave the span intact. -/
theorem witness_stale_data : RingOk received ∧ 0 < received.config.N ∧
    received.available + received.distMod (received.addMod 0 6) received.readPos + 6
      ≤ received.config.N ∧
    (List.replicate 10 (0x41 : Byte)).length =
      received.config.N - received.available
        - received.distMod (received.addMod 0 6) received.readPos - 6 := by decide

/-- OverflowTestAgreesWithTheClamp and RbPushAppendsOneByte: full, and one short of it. -/
theorem witness_overflow :
    (mk (params 3 0) [] 0 0 4 []).available = (params 3 0).N ∧
    (mk (params 3 0) [] 3 0 3 []).available < (params 3 0).N := by decide

theorem witness_read_at : 1 < fourBytes.available ∧ fourBytes.available ≤ 2 ∧
    3 < fourBytes.config.N := by decide

theorem witness_advance_read :
    let s := mk (params 7 0) [] 3 6 5 []
    RingOk s ∧ 5 ≤ s.available ∧ s.available < 6 := by decide

theorem witness_commit_pair :
    let s := mk (params 7 0) [] 3 6 5 []
    RingOk s ∧ 7 < s.config.N ∧ 8 ≤ s.config.N ∧ 5 ≤ s.available ∧ 0 ≤ s.available := by decide

theorem witness_out_of_range :
    let s := mk (params 7 0) [] 3 6 5 []
    s.config.N ≤ 8 ∧ s.config.N < 9 ∧ s.config.N ≤ (Descriptor.mk .nmea 8 0 false .tooLong).start := by
  decide

theorem witness_corrupted_payload :
    validationLength (wrapped.byteAt 3 1) (wrapped.byteAt 3 2) + 3 + 3 ≤ wrapped.config.N ∧
    3 < validationLength (wrapped.byteAt 3 1) (wrapped.byteAt 3 2) + 3 ∧
    (0xAA : Byte) ≠ wrapped.byteAt 3 3 ∧
    exec (.rtcm3Validate 3) wrapped = .next (wrapped.returning (.bit true)) := by
  refine ⟨by decide, by decide, by decide, ?_⟩
  have h : wrapped.rtcm3Validate 3 = true := by decide
  simp [exec, execRtcm3Validate, h]

/-- LengthMasksAgreeWithinTheBound at the bound. -/
theorem witness_length_bound : detectionLength 0xF3 0xFF = 1023 ∧ detectionLength 0xF4 0x00 = 1024 := by
  decide

/-- NmeaHexvalReadsOneDigit: each clause at both ends of its range. -/
theorem witness_hexval :
    [0x2F, 0x30, 0x39, 0x3A, 0x40, 0x41, 0x46, 0x47, 0x60, 0x61, 0x66, 0x67].map
      (fun c => (hexVal c).map BitVec.toNat) =
    [none, some 0, some 9, none, none, some 10, some 15, none, none, some 10, some 15, none] := by
  decide

theorem witness_rtcm3_validate :
    (4 : Nat) = (wrapped.byteAt 3 1).toNat % 4 * 256 + (wrapped.byteAt 3 2).toNat + 3 := by decide

/-- Rtcm3DetectFramesByLength: payload 1 with its last byte missing and there, and 1024. -/
theorem witness_rtcm3_detect :
    (1 : Nat) = (wrapped.byteAt 3 1).toNat % 16 * 256 + (wrapped.byteAt 3 2).toNat ∧ 6 < 1 + 6 ∧
    1 + 6 ≤ 7 ∧
    let s := mk (params 7 0) [0xD3, 0x04, 0x00] 3 0 3 []
    (1024 : Nat) = (s.byteAt 0 1).toNat % 16 * 256 + (s.byteAt 0 2).toNat := by decide

/-- NmeaDetectFramesByLine: the terminator at the last offset of the window, a marker at the first,
and no stop in a full window and in one a byte short. -/
theorem witness_nmea_detect :
    let s := mk (params 15 0) sentence 6 0 6 []
    let m := mk (params 15 0) [0x24, 0x21, 0x41, 0x41, 0x41, 0x41] 6 0 6 []
    5 < min 6 96 ∧ s.byteAt 0 5 = 0x0A#8 ∧ isNmeaStart (m.byteAt 0 1) = true ∧
    (∀ j, j < 5 → 1 ≤ j → isLineStop (s.byteAt 0 j) = false) := by decide

theorem witness_nmea_detect_no_stop :
    let s := mk (params 95 0) (0x24 :: List.replicate 95 0x41) 0 0 96 []
    (∀ k, k < min 96 96 → 1 ≤ k → isLineStop (s.byteAt 0 k) = false) := by decide

theorem witness_emitted_descriptor :
    (mk (params 15 0) sentence 6 0 6 []).classify 0 6 =
      .emit ⟨.nmea, 0, 6, true, .none⟩ 6 := by decide

/-- ScanPassCommitsWhatItConsumed, EmissionsComeInStreamOrder. -/
theorem witness_scan_pass :
    let s := mk (params 15 0) sentence 6 0 6 []
    s.readPos < s.config.N ∧ (0, ⟨.nmea, 0, 6, true, .none⟩) ∈ s.passEmissions ∧
    waiting.available < 6 := by decide

theorem witness_pass_bound : (6 - 5 : Nat) ≤ 1 := by decide

theorem witness_nmea_validate : (2 : Nat) ≤ 8 := by decide

/-- EvictDropsTheOldest: a queue of one descriptor, and the empty queue. -/
theorem witness_evict : received.queue = ⟨.nmea, 0, 6, true, .none⟩ :: [] ∧ State.reset.queue = [] := by
  decide

/-- EnqueueEvictsTheOldestWhenFull: the last ring index, a full queue and one with room. -/
theorem witness_enqueue :
    (Descriptor.mk .nmea 7 0 false .tooLong).start < (params 7 0).N ∧
    [tooLongDescriptor].length = (params 7 0).Q ∧ ([] : List Descriptor).length ≠ (params 7 0).Q := by
  decide

end Sys2Proof.Tests
end

section
/-! SUPPORT. The scope's bounds (`00_scope.md`): the ranges of a safe state against the widths of R10,
and what the three operations that check an operand against `N` answer outside its range (R11). -/

namespace Sys2Proof.Machine

/-! ## The derived widths (R10) -/

/-- `AW` bits hold every ring index. -/
theorem lt_two_pow_addressWidth {i n : Nat} (h : i < n) : i < 2 ^ addressWidth n :=
  calc i < n := h
    _ ≤ 2 ^ Nat.clog 2 n := Nat.le_pow_clog Nat.one_lt_two n
    _ ≤ 2 ^ addressWidth n := Nat.pow_le_pow_right Nat.two_pos (Nat.le_max_right 1 _)

/-- `CW` bits hold every count up to the capacity, the capacity included. -/
theorem lt_two_pow_countWidth {k n : Nat} (h : k ≤ n) : k < 2 ^ countWidth n :=
  Nat.lt_of_lt_of_le (Nat.lt_succ_of_le h) (Nat.le_pow_clog Nat.one_lt_two (n + 1))

/-- The occupancy's width is that of a count of live bytes, with the queue's capacity for the ring's. -/
theorem occupancyWidth_eq_countWidth (q : Nat) : occupancyWidth q = countWidth q := rfl

/-! ## The storage and the descriptors -/

/-- A canonical storage list has at most one cell for each of the `n` indices (R198). -/
theorem Memory.length_le_of_wf {n : Nat} {m : Memory} (h : Memory.wf n m) : m.length ≤ n := by
  obtain ⟨hrising, hrange⟩ := h
  have hnodup : (m.map Prod.fst).Nodup :=
    List.pairwise_map.mpr (hrising.imp Nat.ne_of_lt)
  have hsubset : m.map Prod.fst ⊆ List.range n := by
    intro a ha
    obtain ⟨c, hc, rfl⟩ := List.mem_map.mp ha
    exact List.mem_range.mpr (hrange c hc)
  simpa using (hnodup.subperm hsubset).length_le

/-- The longest message is the longest RTCM3 frame (R29). -/
theorem length_le_of_descriptor_wf {d : Descriptor} (h : d.wf = true) : d.length ≤ 1029 := by
  simp only [Descriptor.wf, Bool.and_eq_true, decide_eq_true_eq] at h
  obtain ⟨⟨_, hlength⟩, _⟩ := h
  exact hlength

/-- A descriptor within its ranges fits its `start` and `length` fields (R30). -/
theorem DescriptorOk.fits {s : State} {d : Descriptor} (h : DescriptorOk s d) :
    d.start < 2 ^ addressWidth s.config.N ∧ d.length < 2 ^ 11 := by
  obtain ⟨hwf, hstart, _⟩ := h
  have hlength := length_le_of_descriptor_wf hwf
  exact ⟨lt_two_pow_addressWidth hstart, by omega⟩

/-! ## Operands outside their ranges (R11, log entry 8) -/

theorem exec_rbSetRead_of_le {s : State} {p : Nat} (h : s.config.N ≤ p) :
    exec (.rbSetRead p) s = .refused .ringIndexOutOfRange :=
  if_neg (Nat.not_lt.mpr h)

theorem exec_rbSetAvailable_of_lt {s : State} {n : Nat} (h : s.config.N < n) :
    exec (.rbSetAvailable n) s = .refused .countOutOfRange :=
  if_neg (Nat.not_le.mpr h)

theorem exec_qEnqueue_of_le {s : State} {d : Descriptor} (h : s.config.N ≤ d.start) :
    exec (.qEnqueue d) s = .refused .ringIndexOutOfRange :=
  if_neg (Nat.not_lt.mpr h)

/-! ## The obligations -/

/-- Settles O18: each range of a safe state lies within its width, and the canonical form bounds the
storage. -/
theorem safeStatesFitTheWidths : Obligations.SafeStatesFitTheWidths := by
  unfold Obligations.SafeStatesFitTheWidths
  rintro s ⟨hstorage, ⟨hwrite, hread, havailable, _⟩, ⟨hqueue, hdescriptors⟩, _⟩
  refine ⟨lt_two_pow_addressWidth hwrite, lt_two_pow_addressWidth hread,
    lt_two_pow_countWidth havailable, ?_, Memory.length_le_of_wf hstorage, hqueue,
    fun d hd => (hdescriptors d hd).fits⟩
  rw [occupancyWidth_eq_countWidth]
  exact lt_two_pow_countWidth hqueue

/-- Settles O38: in each of the three operations the range check fails. -/
theorem outOfRangeValuesAreRefused : Obligations.OutOfRangeValuesAreRefused := by
  unfold Obligations.OutOfRangeValuesAreRefused
  exact fun _ =>
    ⟨fun _ => exec_rbSetRead_of_le, fun _ => exec_rbSetAvailable_of_lt, fun _ => exec_qEnqueue_of_le⟩

end Sys2Proof.Machine
end

section
/-! SUPPORT. What an instruction leaves of the parameters and of the storage (`10_state.md` R21,
R38). -/

namespace Sys2Proof.Machine

@[simp] theorem State.pushAll_config (s : State) (bytes : List Byte) :
    (s.pushAll bytes).config = s.config := by
  induction bytes generalizing s with
  | nil => rfl
  | cons b bytes ih => rw [State.pushAll_cons, ih, State.push_config]

/-- A guarded operation that answers a next state met its guard. -/
theorem next_of_guard {p : Prop} [Decidable p] {u t : State} {r : Refusal}
    (h : (if p then Host.Outcome.next u else .refused r : Host.Outcome State Fault Refusal) =
      .next t) : p ∧ u = t := by
  split at h
  · exact ⟨‹p›, Host.Outcome.next.inj h⟩
  · cases h

/-- The instructions that store bytes: RB_PUSH, the command that calls it and the two
pseudo-commands that expand to that command. -/
def storesBytes : Instr → Bool
  | .push _ | .pushs _ | .pushb _ | .rbPush _ => true
  | _ => false

theorem storesBytes_eq_false {i : Instr} (hpush : ∀ b, i ≠ .push b)
    (hpushs : ∀ text, i ≠ .pushs text) (hpushb : ∀ bytes, i ≠ .pushb bytes)
    (hrbPush : ∀ b, i ≠ .rbPush b) : storesBytes i = false := by
  cases i with
  | push b => exact absurd rfl (hpush b)
  | pushs text => exact absurd rfl (hpushs text)
  | pushb bytes => exact absurd rfl (hpushb bytes)
  | rbPush b => exact absurd rfl (hrbPush b)
  | _ => rfl

/-- The second state has the parameters and the storage of the first. -/
def SameStorage (s t : State) : Prop := t.config = s.config ∧ t.ring = s.ring

theorem sameStorage_dequeue (s : State) : SameStorage s s.dequeue.2 := by
  rw [State.dequeue_state]
  exact ⟨rfl, rfl⟩

theorem SameStorage.readByte {s t : State} (h : SameStorage s t) (a : Nat) :
    t.readByte a = s.readByte a := State.readByte_congr h.1 h.2 a

/-- The instructions that store nothing keep the parameters and the storage. -/
theorem exec_sameStorage {i : Instr} {s t : State} (hi : storesBytes i = false)
    (h : exec i s = .next t) : SameStorage s t := by
  cases i with
  | push | pushs | pushb | rbPush => cases hi
  | hasMessage | reset | crcTableEntry | crc24q | rtcm3Validate | nmeaHexval | nmeaXor
  | nmeaValidate | rtcm3Detect | nmeaDetect | qHas =>
    cases h
    exact ⟨rfl, rfl⟩
  | nextMessage | qDequeue =>
    cases h
    exact sameStorage_dequeue s
  | rbReadAt | rbAdvanceRead | rbSetRead | rbSetAvailable | qEvict =>
    obtain ⟨_, rfl⟩ := next_of_guard h
    exact ⟨rfl, rfl⟩
  | scanPass =>
    cases h
    exact ⟨s.scanPass_config, s.scanPass_ring⟩
  | qEnqueue d =>
    obtain ⟨_, rfl⟩ := next_of_guard h
    exact ⟨s.enqueue_config d, s.enqueue_ring d⟩

/-- No instruction writes the parameters. -/
theorem exec_config {i : Instr} {s t : State} (h : exec i s = .next t) : t.config = s.config := by
  cases hi : storesBytes i with
  | false => exact (exec_sameStorage hi h).1
  | true =>
    cases i with
    | push b => cases h; exact s.push_config b
    | pushs text => cases h; exact s.pushAll_config _
    | pushb bytes => cases h; exact s.pushAll_config bytes
    | rbPush b => cases h; exact s.ringPush_config b
    | _ => cases hi

/-! ## The obligations -/

/-- Settles O11: a store writes the storage alone, and every other instruction keeps both. -/
theorem noInstructionWritesTheParameters : Obligations.NoInstructionWritesTheParameters := by
  unfold Obligations.NoInstructionWritesTheParameters
  exact fun _ _ _ => exec_config

/-- Settles O12: an instruction that stores nothing keeps the storage list and the parameters, and a
read depends on nothing else. -/
theorem onlyPushesWriteTheStorage : Obligations.OnlyPushesWriteTheStorage := by
  unfold Obligations.OnlyPushesWriteTheStorage
  intro i s t h hpush hpushs hpushb hrbPush
  exact (exec_sameStorage (storesBytes_eq_false hpush hpushs hpushb hrbPush) h).readByte

end Sys2Proof.Machine
end

section
/-! SUPPORT. What a step that answers a next state can leave: the effects of the four commands. -/

namespace Sys2Proof.Machine

/-- The state NEXT_MESSAGE leaves (R214). -/
def State.nextMessage (s : State) : State :=
  s.dequeue.2.respond (.message (headerWord s.dequeue.1) s.dequeue.1.data)

/-- NEXT_MESSAGE drops the oldest descriptor, if there is one, and responds. -/
theorem State.nextMessage_eq (s : State) :
    s.nextMessage = (s.setQueue s.queue.tail).respond
      (.message (headerWord s.dequeue.1) s.dequeue.1.data) := by
  rw [State.nextMessage, State.dequeue_state]

/-- The states the four commands leave. -/
inductive CommandEffect (s : State) : State → Prop
  | push (b : Byte) : CommandEffect s (s.push b)
  | hasMessage : CommandEffect s s.respondReady
  | nextMessage : CommandEffect s s.nextMessage
  | reset : CommandEffect s s.clear

theorem exec_decode_effect {w : CommandWord} {s t : State} (h : exec (decode w) s = .next t) :
    CommandEffect s t := by
  rcases decode_cases w with hw | hw | hw | hw <;> rw [hw] at h <;> cases h
  · exact .push _
  · exact .hasMessage
  · exact .nextMessage
  · exact .reset

/-- Everything a step that answers a next state can have done. -/
theorem step_next_cases {s t : State} (h : step s = .next t) :
    t = s ∨ ∃ rest, CommandEffect (s.setInbox rest) t := by
  rcases step_cases s with ⟨_, e⟩ | ⟨_, _, _, _, e⟩ | ⟨w, rest, _, e⟩ <;> rw [e] at h
  · exact .inl (Host.Outcome.next.inj h).symm
  · cases h
  · exact .inr ⟨rest, exec_decode_effect h⟩

/-! ## The responses -/

theorem State.push_responses (s : State) (b : Byte) :
    (s.push b).responses = s.responses ++ [.msgReady (s.ringPush b).scanPass.msgReady] := by
  simp [State.push, State.respondReady]

theorem State.nextMessage_responses (s : State) :
    s.nextMessage.responses =
      s.responses ++ [.message (headerWord s.dequeue.1) s.dequeue.1.data] := by
  rw [State.nextMessage_eq]
  rfl

/-- A command appends at most one response. -/
theorem CommandEffect.responses {s t : State} (h : CommandEffect s t) :
    ∃ r, t.responses = s.responses ++ r ∧ r.length ≤ 1 := by
  cases h with
  | push b => exact ⟨_, s.push_responses b, Nat.le_refl 1⟩
  | hasMessage => exact ⟨_, s.respond_responses _, Nat.le_refl 1⟩
  | nextMessage => exact ⟨_, s.nextMessage_responses, Nat.le_refl 1⟩
  | reset => exact ⟨[], (List.append_nil _).symm, Nat.zero_le 1⟩

/-- Settles O10: each of the four commands appends at most one response, and an idle step none. -/
theorem responsesNeverChange : Obligations.ResponsesNeverChange := by
  unfold Obligations.ResponsesNeverChange
  intro s t h
  rcases step_next_cases h with rfl | ⟨_, heffect⟩
  · exact ⟨[], (List.append_nil _).symm, Nat.zero_le 1⟩
  · exact heffect.responses

end Sys2Proof.Machine
end

section
/-! SUPPORT. What a verdict says of its position, and the induction along a scan pass. -/

namespace Sys2Proof.Machine

/-! ## The verdicts -/

/-- The dispatch on the byte at the scan position. -/
theorem State.classify_cases (s : State) (pos rem : Nat) :
    (s.readByte pos = rtcmPreamble ∧ s.classify pos rem = s.rtcm3Detect pos rem) ∨
    (isNmeaStart (s.readByte pos) = true ∧ s.classify pos rem = s.nmeaDetect pos rem) ∨
    s.classify pos rem = .skip := by
  unfold State.classify
  split
  · exact .inl ⟨‹_›, rfl⟩
  · split
    · exact .inr (.inl ⟨‹_›, rfl⟩)
    · exact .inr (.inr rfl)

/-- With no stop found, none stands in the window. -/
theorem State.firstLineStop_none {s : State} {pos rem : Nat} (h : s.firstLineStop pos rem = none)
    {k : Nat} (h₁ : 1 ≤ k) (hrem : k < rem) (hmax : k < 96) :
    isLineStop (s.byteAt pos k) = false := by
  unfold State.firstLineStop at h
  rw [List.find?_range'_eq_none] at h
  simpa using h k h₁ (by simp only [nmeaMax]; omega)

/-- What a position emits lies within the `rem` bytes there, and the scan moves on by it. -/
abbrev EmissionOk (pos rem : Nat) (d : Descriptor) (adv : Nat) : Prop :=
  d.wf = true ∧ d.start = pos ∧ 1 ≤ adv ∧ adv ≤ rem ∧ adv = max d.length 1

theorem framingError_ok {protocol : Protocol} {reason : Reason} {rem : Nat} (pos : Nat)
    (hwf : (framingError protocol pos reason).wf = true) (hrem : 1 ≤ rem) :
    EmissionOk pos rem (framingError protocol pos reason) 1 :=
  ⟨hwf, rfl, Nat.le_refl 1, hrem, rfl⟩

/-- Whether the check passed or failed, a whole frame's `valid` agrees with its reason. -/
theorem framed_wf {protocol : Protocol} {failure : Reason} {len : Nat} (pos : Nat) (ok : Bool)
    (hwf : (framingError protocol pos failure).wf = true) (hlen : len ≤ 1029) :
    (framed protocol pos len ok failure).wf = true := by
  simp only [Descriptor.wf, framingError, Bool.and_eq_true] at hwf
  obtain ⟨⟨⟨hprotocol, hreason⟩, _⟩, hagree⟩ := hwf
  cases ok <;> simp [Descriptor.wf, framed, hprotocol, hreason, hlen, hagree]

theorem framed_ok {protocol : Protocol} {failure : Reason} {len rem : Nat} (pos : Nat) (ok : Bool)
    (hwf : (framingError protocol pos failure).wf = true) (hpos : 1 ≤ len) (hlen : len ≤ 1029)
    (hrem : len ≤ rem) : EmissionOk pos rem (framed protocol pos len ok failure) len :=
  ⟨framed_wf pos ok hwf hlen, rfl, hpos, hrem, (Nat.max_eq_left hpos).symm⟩

theorem State.rtcm3Detect_emit {s : State} {pos rem adv : Nat} {d : Descriptor} (hrem : 1 ≤ rem)
    (h : s.rtcm3Detect pos rem = .emit d adv) : EmissionOk pos rem d adv := by
  rcases s.rtcm3Detect_cases pos rem with ⟨_, e⟩ | ⟨_, _, e⟩ | ⟨hmax, hfits, e⟩ <;>
    rw [e] at h <;> cases h
  · exact framingError_ok pos rfl hrem
  · exact framed_ok pos _ rfl (by omega) (by omega) hfits

theorem State.nmeaDetect_emit {s : State} {pos rem adv : Nat} {d : Descriptor} (hrem : 1 ≤ rem)
    (h : s.nmeaDetect pos rem = .emit d adv) : EmissionOk pos rem d adv := by
  rcases s.nmeaDetect_cases pos rem with ⟨k, hk, _, e⟩ | ⟨_, _, _, e⟩ | ⟨_, _, e⟩ | ⟨_, _, e⟩ <;>
    rw [e] at h <;> cases h
  · obtain ⟨_, hkrem, hkmax, _⟩ := State.firstLineStop_some hk
    exact framed_ok pos _ rfl (by omega) (by omega) hkrem
  · exact framingError_ok pos rfl hrem

/-- What the scan emits at a position (R150, R173). -/
theorem State.classify_emit {s : State} {pos rem adv : Nat} {d : Descriptor} (hrem : 1 ≤ rem)
    (h : s.classify pos rem = .emit d adv) : EmissionOk pos rem d adv := by
  rcases s.classify_cases pos rem with ⟨_, e⟩ | ⟨_, e⟩ | e <;> rw [e] at h
  · exact State.rtcm3Detect_emit hrem h
  · exact State.nmeaDetect_emit hrem h
  · cases h

/-- What stands at a position whose candidate is not complete (R152, R162). -/
theorem State.classify_incomplete {s : State} {pos rem : Nat}
    (h : s.classify pos rem = .incomplete) :
    (s.readByte pos = rtcmPreamble ∧ detectionLength (s.byteAt pos 1) (s.byteAt pos 2) ≤ 1023 ∧
      rem < detectionLength (s.byteAt pos 1) (s.byteAt pos 2) + 6) ∨
    (rem < 96 ∧ isNmeaStart (s.readByte pos) = true ∧
      ∀ k, k < rem → 1 ≤ k → isLineStop (s.byteAt pos k) = false) := by
  rcases s.classify_cases pos rem with ⟨hbyte, e⟩ | ⟨hbyte, e⟩ | e <;> rw [e] at h
  · rcases s.rtcm3Detect_cases pos rem with ⟨_, e⟩ | ⟨hmax, hshort, _⟩ | ⟨_, _, e⟩
    · rw [e] at h; cases h
    · exact .inl ⟨hbyte, hmax, hshort⟩
    · rw [e] at h; cases h
  · rcases s.nmeaDetect_cases pos rem with ⟨_, _, _, e⟩ | ⟨_, _, _, e⟩ | ⟨_, _, e⟩ | ⟨hnone, hmax, _⟩
    · rw [e] at h; cases h
    · rw [e] at h; cases h
    · rw [e] at h; cases h
    · exact .inr ⟨hmax, hbyte, fun k hk h₁ => State.firstLineStop_none hnone h₁ hk (by omega)⟩
  · cases h

/-! ## The induction along a pass

The pass is read as a walk over the states it would commit: `s.commit pos rem` is the block as a
pass that stops at the locals `(pos, rem)` leaves it. -/

/-- Consuming bytes before the commit or after it is the same. -/
theorem State.advanceRead_commit (s : State) (pos rem n : Nat) :
    (s.commit pos rem).advanceRead n = s.commit (s.addMod pos n) (rem - n) := rfl

theorem State.enqueue_commit (s : State) (d : Descriptor) (pos rem : Nat) :
    (s.commit pos rem).enqueue d = (s.enqueue d).commit pos rem := by
  simp only [State.enqueue_eq]
  rfl

theorem State.classify_commit (s : State) (p r pos rem : Nat) :
    (s.commit p r).classify pos rem = s.classify pos rem := State.classify_congr rfl rfl pos rem

/-- The verdict on the oldest live byte of a state. -/
def State.headVerdict (s : State) : Verdict := s.classify s.readPos s.available

/-- The scan loop stops in this state. -/
def State.Resting (s : State) : Prop := s.available < 6 ∨ s.headVerdict = .incomplete

/-- A turn of the scan loop keeps the predicate, whether it skips a byte or emits a descriptor. -/
structure KeptByTurn (P : State → Prop) : Prop where
  skip : ∀ {s : State}, P s → 6 ≤ s.available → s.headVerdict = .skip → P (s.advanceRead 1)
  emit : ∀ {s : State} {d : Descriptor} {adv : Nat}, P s → 6 ≤ s.available →
    s.headVerdict = .emit d adv → P ((s.enqueue d).advanceRead adv)

/-- A loop with enough fuel ends at rest, and keeps what each of its turns keeps. -/
theorem KeptByTurn.scanLoop {P : State → Prop} (keep : KeptByTurn P) {fuel : Nat} {s : State}
    {pos rem : Nat} (hfuel : rem ≤ fuel) (h : P (s.commit pos rem)) :
    ∃ t p r, scanLoop fuel s pos rem = (t, p, r) ∧ P (t.commit p r) ∧ (t.commit p r).Resting := by
  induction fuel generalizing s pos rem with
  | zero => exact ⟨s, pos, rem, rfl, h, .inl (show rem < 6 by omega)⟩
  | succ fuel ih =>
    rw [scanLoop_succ]
    by_cases hfew : rem < 6
    · exact ⟨s, pos, rem, if_pos hfew, h, .inl hfew⟩
    · have hsix : 6 ≤ (s.commit pos rem).available := Nat.not_lt.mp hfew
      have hhead := s.classify_commit pos rem pos rem
      rw [if_neg hfew]
      cases hv : s.classify pos rem with
      | incomplete => exact ⟨s, pos, rem, rfl, h, .inr (hhead.trans hv)⟩
      | skip =>
        have hturn := keep.skip h hsix (hhead.trans hv)
        rw [State.advanceRead_commit] at hturn
        exact ih (by omega) hturn
      | emit d adv =>
        obtain ⟨_, _, hadv, _⟩ := State.classify_emit (by omega) hv
        have hturn := keep.emit h hsix (hhead.trans hv)
        rw [State.enqueue_commit, State.advanceRead_commit,
          State.addMod_congr (s.enqueue_config d)] at hturn
        exact ih (by omega) hturn

/-- SCAN_PASS ends at rest, and keeps what each turn of its loop keeps. -/
theorem KeptByTurn.scanPass {P : State → Prop} (keep : KeptByTurn P) {s : State} (h : P s) :
    P s.scanPass ∧ s.scanPass.Resting := by
  obtain ⟨t, p, r, e, hkept, hrest⟩ :=
    keep.scanLoop (s := s) (pos := s.readPos) (Nat.le_refl s.available) h
  simp only [State.scanPass, e]
  exact ⟨hkept, hrest⟩

/-- The three clauses of R177. -/
theorem State.Resting.parked {s : State} (h : s.Resting) : Parked s := by
  by_cases hfew : s.available < 6
  · exact .inl hfew
  · rcases State.classify_incomplete (h.resolve_left hfew) with hrtcm | ⟨hmax, hnmea⟩
    · exact .inr (.inl ⟨by omega, hrtcm⟩)
    · exact .inr (.inr ⟨by omega, hmax, hnmea⟩)

/-- Every pass comes to rest, from any state. -/
theorem State.scanPass_parked (s : State) : Parked s.scanPass :=
  have keepsTrue : KeptByTurn fun _ => True := ⟨fun _ _ _ => trivial, fun _ _ _ => trivial⟩
  (keepsTrue.scanPass trivial).2.parked

/-- What a turn that emits knows of its descriptor. -/
theorem State.headVerdict_emit {s : State} {d : Descriptor} {adv : Nat} (hsix : 6 ≤ s.available)
    (h : s.headVerdict = .emit d adv) : EmissionOk s.readPos s.available d adv :=
  State.classify_emit (by omega) h

end Sys2Proof.Machine
end

section
/-! SUPPORT. The ring invariant (`10_state.md` R26): kept by every operation the commands use. -/

namespace Sys2Proof.Machine

/-- Storing a byte where the live region ends and dropping the oldest of a full ring keep it. -/
theorem RingOk.ringPush {s : State} (h : RingOk s) (b : Byte) : RingOk (s.ringPush b) := by
  obtain ⟨_, hread, havailable, hwrite⟩ := h
  have hnext : s.addMod s.writePos 1 = s.addMod s.readPos (s.available + 1) := by
    rw [hwrite, State.addMod_addMod]
  simp only [RingOk, State.ringPush_config, State.ringPush_writePos, State.ringPush_readPos,
    State.ringPush_available, State.addMod_congr (s.ringPush_config b)]
  refine ⟨s.addMod_lt _ 1, ?_⟩
  split
  · exact ⟨s.addMod_lt _ 1, havailable, by rw [hnext, State.addMod_addMod, Nat.add_comm]⟩
  · exact ⟨hread, by omega, hnext⟩

theorem RingOk.advanceRead {s : State} {n : Nat} (h : RingOk s) (hn : n ≤ s.available) :
    RingOk (s.advanceRead n) := by
  obtain ⟨hwriteRange, _, havailable, hwrite⟩ := h
  refine ⟨hwriteRange, s.addMod_lt _ n, (Nat.sub_le _ n).trans havailable, ?_⟩
  calc s.writePos = s.addMod s.readPos (n + (s.available - n)) := by
        rw [Nat.add_sub_cancel' hn]; exact hwrite
    _ = s.addMod (s.addMod s.readPos n) (s.available - n) := (s.addMod_addMod _ _ _).symm

/-- The queue is no part of the ring. -/
theorem RingOk.setQueue {s : State} (h : RingOk s) (q : List Descriptor) :
    RingOk (s.setQueue q) := h

theorem RingOk.enqueue {s : State} (h : RingOk s) (d : Descriptor) : RingOk (s.enqueue d) := by
  rw [State.enqueue_eq]
  exact h.setQueue _

/-- A turn consumes no more than is live. -/
theorem ringOk_keptByTurn : KeptByTurn RingOk where
  skip h hsix _ := h.advanceRead (by omega)
  emit {s d adv} h hsix hv := by
    obtain ⟨_, _, _, hadv, _⟩ := State.headVerdict_emit hsix hv
    exact (h.enqueue d).advanceRead (by simpa using hadv)

theorem RingOk.scanPass {s : State} (h : RingOk s) : RingOk s.scanPass :=
  (ringOk_keptByTurn.scanPass h).1

theorem RingOk.clear (s : State) : RingOk s.clear :=
  ⟨s.config.N_pos, s.config.N_pos, Nat.zero_le _, (Nat.zero_mod _).symm⟩

theorem RingOk.nextMessage {s : State} (h : RingOk s) : RingOk s.nextMessage := by
  rw [State.nextMessage_eq]
  exact h.setQueue s.queue.tail

theorem RingOk.command {s t : State} (h : RingOk s) (heffect : CommandEffect s t) : RingOk t := by
  cases heffect with
  | push b => exact (h.ringPush b).scanPass
  | hasMessage => exact h
  | nextMessage => exact h.nextMessage
  | reset => exact RingOk.clear s

/-- Settles O14: each command keeps the ring invariant, and taking its word off the stream does. -/
theorem stepKeepsTheRingInvariant : Obligations.StepKeepsTheRingInvariant := by
  unfold Obligations.StepKeepsTheRingInvariant
  intro s t hring hstep
  rcases step_next_cases hstep with rfl | ⟨rest, heffect⟩
  · exact hring
  · have htaken : RingOk (s.setInbox rest) := hring
    exact htaken.command heffect

end Sys2Proof.Machine
end

section
/-! SUPPORT. The parts of a safe state other than the ring invariant, each kept by every operation
the commands use: the storage's form, the queue's descriptors, and that readable bytes stay written
(`10_state.md` R28, R29, R32; `70_reset_and_hazards.md` R261). -/

namespace Sys2Proof.Machine

/-! ## The queue -/

/-- What stands in the queue after an enqueue is the new descriptor or stood there before. -/
theorem State.mem_enqueue {s : State} {d x : Descriptor} (h : x ∈ (s.enqueue d).queue) :
    x = d ∨ x ∈ s.queue := by
  rw [State.enqueue_queue, List.mem_append, List.mem_singleton] at h
  refine h.symm.imp_right fun hold => ?_
  split at hold
  · exact List.mem_of_mem_tail hold
  · exact hold

/-- The eviction makes room before the append. -/
theorem State.length_enqueue_le {s : State} (d : Descriptor) (h : s.queue.length ≤ s.config.Q) :
    (s.enqueue d).queue.length ≤ s.config.Q := by
  have hQ := s.config.Q_pos
  rw [State.enqueue_queue, List.length_append, List.length_singleton]
  split
  · rw [List.length_tail]
    omega
  · omega

theorem QueueOk.enqueue {s : State} {d : Descriptor} (h : QueueOk s) (hd : DescriptorOk s d) :
    QueueOk (s.enqueue d) := by
  obtain ⟨hlength, hall⟩ := h
  simp only [QueueOk, DescriptorOk, State.enqueue_config]
  refine ⟨State.length_enqueue_le d hlength, fun x hx => ?_⟩
  rcases State.mem_enqueue hx with rfl | hold
  · exact hd
  · exact hall x hold

theorem QueueOk.tail {s : State} (h : QueueOk s) : QueueOk (s.setQueue s.queue.tail) := by
  obtain ⟨hlength, hall⟩ := h
  refine ⟨?_, fun x hx => hall x (List.mem_of_mem_tail hx)⟩
  rw [State.setQueue_queue, List.length_tail]
  exact (Nat.sub_le _ 1).trans hlength

theorem QueueOk.ringPush {s : State} (h : QueueOk s) (b : Byte) : QueueOk (s.ringPush b) := by
  simpa only [QueueOk, DescriptorOk, State.ringPush_queue, State.ringPush_config] using h

/-- The span of an emission starts at the read cursor and is live, so it is within the ranges. -/
theorem RingOk.descriptorOk {s : State} {d : Descriptor} {adv : Nat} (h : RingOk s)
    (hd : EmissionOk s.readPos s.available d adv) : DescriptorOk s d := by
  obtain ⟨_, hread, havailable, _⟩ := h
  obtain ⟨hwf, hstart, _, hadv, hmax⟩ := hd
  exact ⟨hwf, hstart ▸ hread, by omega⟩

theorem ringOk_queueOk_keptByTurn : KeptByTurn fun s => RingOk s ∧ QueueOk s where
  skip h hsix hv := ⟨ringOk_keptByTurn.skip h.1 hsix hv, h.2⟩
  emit h hsix hv :=
    ⟨ringOk_keptByTurn.emit h.1 hsix hv,
      h.2.enqueue (h.1.descriptorOk (State.headVerdict_emit hsix hv))⟩

theorem QueueOk.scanPass {s : State} (h : QueueOk s) (hring : RingOk s) : QueueOk s.scanPass :=
  (ringOk_queueOk_keptByTurn.scanPass ⟨hring, h⟩).1.2

/-! ## The written bytes -/

/-- A store leaves a byte at its index and removes none. -/
theorem Memory.isSome_find_store (m : Memory) (a a' : Nat) (v : Byte) :
    ((m.store a v).find a').isSome = true ↔ a' = a ∨ (m.find a').isSome = true := by
  rw [Memory.find_store]
  by_cases h : a' = a <;> simp [h]

theorem SpanWritten.ringPush {s : State} {p n : Nat} (h : SpanWritten s p n) (b : Byte) :
    SpanWritten (s.ringPush b) p n := by
  intro k hk
  rw [State.ringPush_ring, State.addMod_congr (s.ringPush_config b), Memory.isSome_find_store]
  exact .inr (h k hk)

/-- The rest of a span, after its first bytes. -/
theorem SpanWritten.drop {s : State} {p n : Nat} (h : SpanWritten s p n) (j : Nat) :
    SpanWritten s (s.addMod p j) (n - j) := by
  intro k hk
  rw [State.addMod_addMod]
  exact h (j + k) (by omega)

theorem SpanWritten.take {s : State} {p n m : Nat} (h : SpanWritten s p n) (hm : m ≤ n) :
    SpanWritten s p m := fun k hk => h k (by omega)

/-- A live byte after RB_PUSH stood in the live region before, or just past its end. -/
theorem State.ringPush_live {s : State} {b : Byte} {k : Nat}
    (hk : k < (s.ringPush b).available) :
    ∃ j ≤ s.available, (s.ringPush b).addMod (s.ringPush b).readPos k = s.addMod s.readPos j := by
  rw [State.addMod_congr (s.ringPush_config b), State.ringPush_readPos]
  rw [State.ringPush_available] at hk
  split at hk
  · exact ⟨1 + k, by omega, by rw [if_pos ‹_›, State.addMod_addMod]⟩
  · exact ⟨k, by omega, by rw [if_neg ‹_›]⟩

/-- The byte past the end of the live region is the stored one. -/
theorem ReadsWritten.ringPush {s : State} (h : ReadsWritten s) (hring : RingOk s) (b : Byte) :
    ReadsWritten (s.ringPush b) := by
  obtain ⟨hlive, hqueued⟩ := h
  obtain ⟨hwriteRange, _, _, hwrite⟩ := hring
  refine ⟨fun k hk => ?_, fun d hd => ?_⟩
  · obtain ⟨j, hj, e⟩ := State.ringPush_live hk
    rw [e, State.ringPush_ring, Memory.isSome_find_store, Nat.mod_eq_of_lt hwriteRange, hwrite]
    rcases Nat.lt_or_eq_of_le hj with hlt | rfl
    · exact .inr (hlive j hlt)
    · exact .inl rfl
  · rw [State.ringPush_queue] at hd
    exact (hqueued d hd).ringPush b

theorem ReadsWritten.advanceRead {s : State} (h : ReadsWritten s) (n : Nat) :
    ReadsWritten (s.advanceRead n) := ⟨h.1.drop n, h.2⟩

theorem ReadsWritten.enqueue {s : State} {d : Descriptor} (h : ReadsWritten s)
    (hd : SpanWritten s d.start d.length) : ReadsWritten (s.enqueue d) := by
  obtain ⟨hlive, hqueued⟩ := h
  have hall : ∀ x ∈ (s.enqueue d).queue, SpanWritten s x.start x.length := by
    intro x hx
    rcases State.mem_enqueue hx with rfl | hold
    · exact hd
    · exact hqueued x hold
  rw [State.enqueue_eq] at hall ⊢
  exact ⟨hlive, hall⟩

theorem ReadsWritten.tail {s : State} (h : ReadsWritten s) :
    ReadsWritten (s.setQueue s.queue.tail) :=
  ⟨h.1, fun d hd => h.2 d (List.mem_of_mem_tail hd)⟩

/-- A framed span is live when it is framed. -/
theorem readsWritten_keptByTurn : KeptByTurn ReadsWritten where
  skip h _ _ := h.advanceRead 1
  emit {s d adv} h hsix hv := by
    obtain ⟨_, hstart, _, hadv, hmax⟩ := State.headVerdict_emit hsix hv
    have hspan : SpanWritten s d.start d.length := hstart ▸ h.1.take (by omega)
    exact (h.enqueue hspan).advanceRead adv

theorem ReadsWritten.scanPass {s : State} (h : ReadsWritten s) : ReadsWritten s.scanPass :=
  (readsWritten_keptByTurn.scanPass h).1

theorem ReadsWritten.clear (s : State) : ReadsWritten s.clear :=
  ⟨fun _ hk => absurd hk (Nat.not_lt_zero _), fun _ hd => absurd hd List.not_mem_nil⟩

/-! ## The storage -/

theorem StorageOk.push {s : State} (h : StorageOk s) (b : Byte) : StorageOk (s.push b) := by
  simp only [StorageOk, State.push_config, State.push_ring]
  exact State.writeByte_wf s.writePos b h

end Sys2Proof.Machine
end

section
/-! SUPPORT. The responses of a safe state (`30_encoding.md` R76, R81; `10_state.md` R32, R35). -/

namespace Sys2Proof.Machine

/-! ## The fields of a header word -/

section Header
variable (m : OutputMessage)

theorem headerWord_length : (headerWord m).extractLsb' 0 11 = BitVec.ofNat 11 m.length :=
  BitVec.extractLsb'_append_eq_right

theorem headerWord_reserved : (headerWord m).extractLsb' 11 7 = 0#7 := by
  unfold headerWord
  rw [BitVec.extractLsb'_append_eq_of_le (by decide)]
  exact BitVec.extractLsb'_append_eq_right

theorem headerWord_reason : (headerWord m).extractLsb' 18 3 = reasonCode m.reason := by
  unfold headerWord
  iterate 2 rw [BitVec.extractLsb'_append_eq_of_le (by decide)]
  exact BitVec.extractLsb'_append_eq_right

theorem headerWord_protocol : (headerWord m).extractLsb' 22 2 = protocolCode m.protocol := by
  unfold headerWord
  iterate 4 rw [BitVec.extractLsb'_append_eq_of_le (by decide)]
  exact BitVec.extractLsb'_eq_self

theorem headerWord_valid : (headerWord m).getLsbD 21 = m.valid := by
  unfold headerWord
  iterate 4 rw [BitVec.getLsbD_append]
  simp

end Header

theorem protocolOfCode_protocolCode (p : Protocol) :
    protocolOfCode (protocolCode p) = some p := by
  cases p <;> rfl

theorem reasonOfCode_reasonCode (r : Reason) : reasonOfCode (reasonCode r) = some r := by
  cases r <;> rfl

/-- The decoder reads back the fields of a header whose length is one the block gives. -/
theorem decodeHeader_headerWord {m : OutputMessage} (h : m.length ≤ 1029) :
    decodeHeader (headerWord m) = .ok ⟨m.protocol, m.valid, m.reason, m.length⟩ := by
  have hlength : m.length % 2 ^ 11 = m.length := Nat.mod_eq_of_lt (by omega)
  simp only [decodeHeader, headerWord_protocol, headerWord_reason, headerWord_reserved,
    headerWord_length, headerWord_valid, protocolOfCode_protocolCode, reasonOfCode_reasonCode,
    BitVec.toNat_ofNat, hlength]
  rw [if_neg (not_not_intro rfl), if_neg (Nat.not_lt.mpr h)]

/-! ## The responses -/

theorem responseOk_message {m : OutputMessage} (hlength : m.length ≤ 1029)
    (hdata : m.length = m.data.length) (hvalid : m.valid = true ↔ m.reason = .none) :
    ResponseOk (.message (headerWord m) m.data) :=
  ⟨_, decodeHeader_headerWord hlength, hdata, hvalid⟩

theorem valid_iff_of_descriptor_wf {d : Descriptor} (h : d.wf = true) :
    d.valid = true ↔ d.reason = .none := by
  simp only [Descriptor.wf, Bool.and_eq_true, beq_iff_eq] at h
  obtain ⟨_, hvalid⟩ := h
  rw [hvalid, beq_iff_eq]

theorem responseOk_sentinel : ResponseOk (.message (headerWord sentinel) sentinel.data) :=
  responseOk_message (by decide) rfl (by decide)

theorem State.responseOk_materialise (s : State) {d : Descriptor} (h : d.wf = true) :
    ResponseOk (.message (headerWord (s.materialise d)) (s.materialise d).data) :=
  responseOk_message (length_le_of_descriptor_wf h) (s.length_span d.start d.length).symm
    (valid_iff_of_descriptor_wf h)

/-- The sentinel and every message of a queue within its ranges answer without reserved values. -/
theorem QueueOk.responseOk_dequeue {s : State} (h : QueueOk s) :
    ResponseOk (.message (headerWord s.dequeue.1) s.dequeue.1.data) := by
  rcases s.dequeue_cases with ⟨_, e⟩ | ⟨d, rest, hqueue, e⟩ <;> rw [e]
  · exact responseOk_sentinel
  · obtain ⟨hwf, _⟩ := h.2 d (hqueue ▸ List.mem_cons_self)
    exact s.responseOk_materialise hwf

/-- One more response without reserved values. -/
theorem responsesOk_append {l : List Response} {r : Response} (hl : ∀ x ∈ l, ResponseOk x)
    (hr : ResponseOk r) : ∀ x ∈ l ++ [r], ResponseOk x :=
  List.forall_mem_append.mpr ⟨hl, List.forall_mem_singleton.mpr hr⟩

end Sys2Proof.Machine
end

section
/-! SUPPORT. Each command keeps a safe state safe. -/

namespace Sys2Proof.Machine

theorem SafeState.push {s : State} (h : SafeState s) (b : Byte) : SafeState (s.push b) := by
  obtain ⟨hstorage, hring, hqueue, hreads, _, hresponses⟩ := h
  refine ⟨hstorage.push b, (hring.ringPush b).scanPass,
    (hqueue.ringPush b).scanPass (hring.ringPush b), (hreads.ringPush hring b).scanPass,
    (s.ringPush b).scanPass_parked, ?_⟩
  rw [State.push_responses]
  exact responsesOk_append hresponses trivial

theorem SafeState.respondReady {s : State} (h : SafeState s) : SafeState s.respondReady := by
  obtain ⟨hstorage, hring, hqueue, hreads, hparked, hresponses⟩ := h
  exact ⟨hstorage, hring, hqueue, hreads, hparked, responsesOk_append hresponses trivial⟩

theorem SafeState.nextMessage {s : State} (h : SafeState s) : SafeState s.nextMessage := by
  obtain ⟨hstorage, hring, hqueue, hreads, hparked, hresponses⟩ := h
  rw [State.nextMessage_eq]
  exact ⟨hstorage, hring.setQueue s.queue.tail, hqueue.tail, hreads.tail, hparked,
    responsesOk_append hresponses hqueue.responseOk_dequeue⟩

theorem SafeState.clear {s : State} (h : SafeState s) : SafeState s.clear := by
  obtain ⟨hstorage, _, _, _, _, hresponses⟩ := h
  exact ⟨hstorage, RingOk.clear s,
    ⟨Nat.zero_le _, fun _ hd => absurd hd List.not_mem_nil⟩, ReadsWritten.clear s,
    .inl (Nat.zero_lt_succ 5), hresponses⟩

theorem SafeState.command {s t : State} (h : SafeState s) (heffect : CommandEffect s t) :
    SafeState t := by
  cases heffect with
  | push b => exact h.push b
  | hasMessage => exact h.respondReady
  | nextMessage => exact h.nextMessage
  | reset => exact h.clear

/-- Settles O16: each command keeps a safe state safe, and taking its word off the stream does. -/
theorem stepKeepsSafeState : Obligations.StepKeepsSafeState := by
  unfold Obligations.StepKeepsSafeState
  intro s t hsafe hstep
  rcases step_next_cases hstep with rfl | ⟨rest, heffect⟩
  · exact hsafe
  · have htaken : SafeState (s.setInbox rest) := hsafe
    exact htaken.command heffect

end Sys2Proof.Machine
end

section
/-! SUPPORT. Storage access over a run of PUSHes: where each byte of a PUSHB stands, and what the run
leaves alone (`20_memory.md` R53; `30_encoding.md` R80; `44_interface.md` R210). -/

namespace Sys2Proof.Machine

/-! ## Places along the ring -/

/-- Two offsets below the capacity that reach the same index are the same. -/
theorem State.addMod_inj {s : State} {p i j : Nat} (hi : i < s.config.N) (hj : j < s.config.N)
    (h : s.addMod p i = s.addMod p j) : i = j :=
  (Nat.ModEq.add_left_cancel' p h).eq_of_lt_of_lt hi hj

/-- The places after the write cursor, once it has moved by one byte. -/
theorem State.push_addMod_writePos (s : State) (b : Byte) (k : Nat) :
    (s.push b).addMod (s.push b).writePos k = s.addMod s.writePos (k + 1) := by
  rw [State.addMod_congr (s.push_config b), State.push_writePos, State.addMod_addMod,
    Nat.add_comm]

/-! ## One PUSH -/

/-- Only RB_PUSH stores: the pass and the response leave what it stored. -/
theorem State.readByte_push (s : State) (b : Byte) (a : Nat) :
    (s.push b).readByte a =
      if a % s.config.N = s.writePos % s.config.N then b else s.readByte a := by
  rw [← State.readByte_ringPush]
  exact State.readByte_congr (by simp) (by simp) a

/-! ## A run of PUSHes -/

@[simp] theorem State.pushAll_inbox (s : State) (bytes : List Byte) :
    (s.pushAll bytes).inbox = s.inbox := by
  induction bytes generalizing s with
  | nil => rfl
  | cons b bytes ih => rw [State.pushAll_cons, ih, State.push_inbox]

@[simp] theorem State.pushAll_returned (s : State) (bytes : List Byte) :
    (s.pushAll bytes).returned = s.returned := by
  induction bytes generalizing s with
  | nil => rfl
  | cons b bytes ih => rw [State.pushAll_cons, ih, State.push_returned]

/-- With no byte pushed the cursor must be in range already; each PUSH leaves it there. -/
theorem State.pushAll_writePos {s : State} (bytes : List Byte) (h : s.writePos < s.config.N) :
    (s.pushAll bytes).writePos = s.addMod s.writePos bytes.length := by
  induction bytes generalizing s with
  | nil => exact (State.addMod_zero h).symm
  | cons b bytes ih =>
    have hrange : (s.push b).writePos < (s.push b).config.N := by
      rw [State.push_writePos, State.push_config]
      exact s.addMod_lt _ 1
    rw [State.pushAll_cons, ih hrange, State.push_addMod_writePos, List.length_cons]

/-- One response a byte, after those already given. -/
theorem State.pushAll_responses (s : State) (bytes : List Byte) :
    ∃ r, (s.pushAll bytes).responses = s.responses ++ r ∧ r.length = bytes.length := by
  induction bytes generalizing s with
  | nil => exact ⟨[], (List.append_nil _).symm, rfl⟩
  | cons b bytes ih =>
    obtain ⟨r, hr, hlength⟩ := ih (s.push b)
    refine ⟨.msgReady (s.ringPush b).scanPass.msgReady :: r, ?_, congrArg Nat.succ hlength⟩
    rw [State.pushAll_cons, hr, State.push_responses, List.append_assoc, List.singleton_append]

/-- The frame: an index that no byte of the run is stored at reads as before. -/
theorem State.readByte_pushAll_of_ne {s : State} {bytes : List Byte} {a : Nat}
    (h : ∀ k, k < bytes.length → a % s.config.N ≠ s.addMod s.writePos k) :
    (s.pushAll bytes).readByte a = s.readByte a := by
  induction bytes generalizing s with
  | nil => rfl
  | cons b bytes ih =>
    have hfirst : a % s.config.N ≠ s.writePos % s.config.N := h 0 (Nat.zero_lt_succ _)
    have hrest : ∀ k, k < bytes.length →
        a % (s.push b).config.N ≠ (s.push b).addMod (s.push b).writePos k := by
      intro k hk
      rw [State.push_addMod_writePos, State.push_config]
      exact h (k + 1) (Nat.succ_lt_succ hk)
    rw [State.pushAll_cons, ih hrest, State.readByte_push, if_neg hfirst]

/-- The placement: in a run that fits the ring no later byte reaches the place of an earlier one. -/
theorem State.readByte_pushAll {s : State} {bytes : List Byte} (hfits : bytes.length ≤ s.config.N)
    (k : Nat) (hk : k < bytes.length) :
    (s.pushAll bytes).readByte (s.addMod s.writePos k) = bytes[k] := by
  induction bytes generalizing s k with
  | nil => exact absurd hk (Nat.not_lt_zero k)
  | cons b bytes ih =>
    rw [List.length_cons] at hfits hk
    rw [State.pushAll_cons]
    cases k with
    | zero =>
      have hlater : ∀ j, j < bytes.length → s.addMod s.writePos 0 % (s.push b).config.N ≠
          (s.push b).addMod (s.push b).writePos j := by
        intro j hj heq
        rw [State.push_config, State.addMod_mod, State.push_addMod_writePos] at heq
        exact absurd (State.addMod_inj s.config.N_pos (by omega) heq) (Nat.succ_ne_zero j).symm
      rw [State.readByte_pushAll_of_ne hlater, State.readByte_push, State.addMod_mod]
      exact if_pos rfl
    | succ k =>
      rw [← State.push_addMod_writePos s b]
      exact ih (by rw [State.push_config]; omega) k (Nat.lt_of_succ_lt_succ hk)

/-! ## The obligation -/

/-- Settles O26: each clause is a fact of a run of PUSHes. -/
theorem pushbStoresItsBytesInOrder : Obligations.PushbStoresItsBytesInOrder := by
  unfold Obligations.PushbStoresItsBytesInOrder
  intro bytes s hwrite
  exact ⟨s.pushAll bytes, rfl, State.pushAll_writePos bytes hwrite, s.pushAll_responses bytes,
    State.readByte_pushAll, fun _ => State.readByte_pushAll_of_ne, s.pushAll_config bytes,
    s.pushAll_inbox bytes, s.pushAll_returned bytes⟩

end Sys2Proof.Machine
end

section
/-! SUPPORT. Command words against instructions (`30_encoding.md` R71 to R74, R77, R80): every word
is its two fields, and the operation select alone chooses the command. -/

namespace Sys2Proof.Machine

/-! ## The two fields of a word (R71) -/

/-- A word is the join of its two fields, so no bit of it is lost. -/
theorem commandWord_fields (w : CommandWord) : commandWord (opField w) (dataField w) = w := by
  unfold commandWord opField dataField
  exact (BitVec.extractLsb'_append_extractLsb'_eq_extractLsb' (Nat.zero_add 8).symm).trans
    BitVec.extractLsb'_eq_self

theorem opField_commandWord (op : BitVec 2) (data : Byte) : opField (commandWord op data) = op :=
  BitVec.extractLsb'_append_eq_left

theorem dataField_commandWord (op : BitVec 2) (data : Byte) :
    dataField (commandWord op data) = data := BitVec.extractLsb'_append_eq_right

/-- Every value of `op` names a row of the opcode map. -/
theorem op_cases (op : BitVec 2) : op = 0b00#2 ∨ op = 0b01#2 ∨ op = 0b10#2 ∨ op = 0b11#2 := by
  revert op
  decide

/-! ## The opcode map (R72) -/

theorem decode_commandWord (op : BitVec 2) (data : Byte) :
    decode (commandWord op data) =
      if op = 0b00#2 then .push data
      else if op = 0b01#2 then .hasMessage data
      else if op = 0b10#2 then .nextMessage data
      else .reset data := by
  rw [decode, opField_commandWord, dataField_commandWord]

theorem decode_pushWord (b : Byte) : decode (commandWord 0b00#2 b) = .push b :=
  decode_commandWord _ b
theorem decode_hasMessageWord (x : Byte) : decode (commandWord 0b01#2 x) = .hasMessage x :=
  decode_commandWord _ x
theorem decode_nextMessageWord (x : Byte) : decode (commandWord 0b10#2 x) = .nextMessage x :=
  decode_commandWord _ x
theorem decode_resetWord (x : Byte) : decode (commandWord 0b11#2 x) = .reset x :=
  decode_commandWord _ x

/-- The words of a run of PUSHes, one for each item of a list, decode to that run. -/
theorem map_decode_pushWords {α : Type} (byte : α → Byte) (items : List α) :
    (items.map fun t => commandWord 0b00#2 (byte t)).map decode =
      items.map fun t => .push (byte t) := by
  rw [List.map_map]
  exact List.map_congr_left fun t _ => decode_pushWord (byte t)

/-- A word that shows a row's match under the mask `0x300` is that row's word with its own low
bits. -/
theorem eq_commandWord_of_match {w : CommandWord} {op : BitVec 2}
    (h : w &&& 0x300#10 = commandWord op 0) : w = commandWord op (w.setWidth 8) := by
  obtain ⟨op', data, rfl⟩ : ∃ op' data, w = commandWord op' data :=
    ⟨_, _, (commandWord_fields w).symm⟩
  have hmask : commandWord op' data &&& 0x300#10 = commandWord op' 0 := by
    calc commandWord op' data &&& (0b11#2 ++ 0#8) = (op' &&& 0b11#2) ++ (data &&& 0#8) :=
          BitVec.and_append
      _ = commandWord op' 0 := by
          rw [show 0b11#2 = BitVec.allOnes 2 from rfl, BitVec.and_allOnes, BitVec.and_zero]; rfl
  have hop : op' = op := by
    rw [← opField_commandWord op' 0, ← hmask, h, opField_commandWord]
  rw [hop]
  exact congrArg (commandWord op) BitVec.setWidth_append_eq_right.symm

/-! ## Encoding what was decoded -/

/-- Every word is the one word of the command it decodes to. -/
theorem encode_decode (w : CommandWord) : encode (decode w) = some [w] := by
  rw [← commandWord_fields w]
  generalize dataField w = data
  rcases op_cases (opField w) with h | h | h | h <;> rw [h]
  · rw [decode_pushWord]; rfl
  · rw [decode_hasMessageWord]; rfl
  · rw [decode_nextMessageWord]; rfl
  · rw [decode_resetWord]; rfl

/-- The words of an instruction decode to the commands it stands for. -/
theorem map_decode_of_encode {i : Instr} {ws : List CommandWord} (h : encode i = some ws) :
    ws.map decode = expand i := by
  cases i with
  | push b => cases h; exact congrArg (fun i => [i]) (decode_pushWord b)
  | hasMessage x => cases h; exact congrArg (fun i => [i]) (decode_hasMessageWord x)
  | nextMessage x => cases h; exact congrArg (fun i => [i]) (decode_nextMessageWord x)
  | reset x => cases h; exact congrArg (fun i => [i]) (decode_resetWord x)
  | pushs text => cases h; exact map_decode_pushWords StringPart.byte text
  | pushb bytes => cases h; exact map_decode_pushWords id bytes
  | _ => cases h

/-- Only the four commands stand for themselves: a pseudo-command stands for PUSHes. -/
theorem exists_word_of_expand {i : Instr} (h : expand i = [i]) :
    ∃ w, encode i = some [w] ∧ decode w = i := by
  cases i with
  | push b => exact ⟨_, rfl, decode_pushWord b⟩
  | hasMessage x => exact ⟨_, rfl, decode_hasMessageWord x⟩
  | nextMessage x => exact ⟨_, rfl, decode_nextMessageWord x⟩
  | reset x => exact ⟨_, rfl, decode_resetWord x⟩
  | pushs text =>
    obtain ⟨_, _, hpush⟩ := List.mem_map.mp (h ▸ List.mem_singleton_self (Instr.pushs text))
    cases hpush
  | pushb bytes =>
    obtain ⟨_, _, hpush⟩ := List.mem_map.mp (h ▸ List.mem_singleton_self (Instr.pushb bytes))
    cases hpush
  | _ => cases h

/-- A stream of words is the encoding of its decoding. -/
theorem flatMap_encode_decode (ws : List CommandWord) :
    ((ws.map decode).flatMap fun i => (encode i).getD []) = ws := by
  rw [List.flatMap_map]
  simp only [encode_decode, Option.getD_some]
  exact List.flatMap_singleton' ws

/-! ## A step on a word at the head of the stream (R70, R73) -/

theorem decode_wf (w : CommandWord) : (decode w).wf = true := by
  rcases decode_cases w with h | h | h | h <;> rw [h] <;> rfl

theorem step_of_command {s : State} {w : CommandWord} {rest : List HostInput}
    (h : s.inbox = .command w :: rest) : step s = exec (decode w) (s.setInbox rest) := by
  simp only [step, State.fetch, h]

theorem step_of_idle {s : State} (h : s.inbox = []) : step s = .next s := by
  simp only [step, State.fetch, h]

theorem step_of_overlap {s : State} {w₁ w₂ : CommandWord} {rest : List HostInput}
    (h : s.inbox = .overlapping w₁ w₂ :: rest) : step s = .refused .overlappingCommands := by
  simp only [step, State.fetch, h]

/-- The three commands other than PUSH have an effect that does not read the data field. -/
theorem exec_decode_of_op_ne_push {op : BitVec 2} (hop : op ≠ 0b00#2) (x y : Byte) (s : State) :
    exec (decode (commandWord op x)) s = exec (decode (commandWord op y)) s := by
  rcases op_cases op with rfl | rfl | rfl | rfl
  · exact absurd rfl hop
  · rw [decode_hasMessageWord, decode_hasMessageWord]; rfl
  · rw [decode_nextMessageWord, decode_nextMessageWord]; rfl
  · rw [decode_resetWord, decode_resetWord]; rfl

/-! ## The obligations -/

/-- Settles O3: each instruction by its words, each word by its two fields. -/
theorem decodeAndEncodeAgree : Obligations.DecodeAndEncodeAgree := by
  unfold Obligations.DecodeAndEncodeAgree
  exact ⟨fun _ _ => map_decode_of_encode, fun _ => exists_word_of_expand, encode_decode,
    flatMap_encode_decode⟩

/-- Settles O1: each word is the join of its two fields, which select the row. -/
theorem decodeReadsTheSpecsWords : Obligations.DecodeReadsTheSpecsWords := by
  unfold Obligations.DecodeReadsTheSpecsWords
  exact ⟨decode_pushWord 0x24, decode_pushWord 0xD3, decode_pushWord 0x00, decode_pushWord 0xFF,
    decode_hasMessageWord 0x00, decode_hasMessageWord 0xA5, decode_nextMessageWord 0x00,
    decode_resetWord 0x00, decode_resetWord 0xFF⟩

/-- Settles O2: the match under the mask leaves only the row's own words. -/
theorem opcodeMapByMatchAndMask : Obligations.OpcodeMapByMatchAndMask := by
  unfold Obligations.OpcodeMapByMatchAndMask
  intro w
  refine ⟨fun h => ?_, fun h => ?_, fun h => ?_, fun h => ?_⟩
  · exact (congrArg decode (eq_commandWord_of_match h)).trans (decode_pushWord _)
  · exact (congrArg decode (eq_commandWord_of_match h)).trans (decode_hasMessageWord _)
  · exact (congrArg decode (eq_commandWord_of_match h)).trans (decode_nextMessageWord _)
  · exact (congrArg decode (eq_commandWord_of_match h)).trans (decode_resetWord _)

/-- Settles O4: both steps run the same command on the same state. -/
theorem ignoredFieldHasNoEffect : Obligations.IgnoredFieldHasNoEffect := by
  unfold Obligations.IgnoredFieldHasNoEffect
  refine ⟨decode_pushWord, fun op x y s rest hop h => ?_⟩
  calc step s = exec (decode (commandWord op x)) (s.setInbox rest) := step_of_command h
    _ = exec (decode (commandWord op y)) (s.setInbox rest) := exec_decode_of_op_ne_push hop x y _
    _ = step (s.setInbox (.command (op ++ y) :: rest)) :=
      (step_of_command (State.setInbox_inbox s _)).symm

/-- Settles O7: the three forms of the host's oldest input. -/
theorem stepRunsTheDecodedCommand : Obligations.StepRunsTheDecodedCommand := by
  unfold Obligations.StepRunsTheDecodedCommand
  exact ⟨fun _ w _ h => ⟨decode_wf w, step_of_command h⟩, fun _ => step_of_idle,
    fun _ _ _ _ => step_of_overlap⟩

end Sys2Proof.Machine
end

section
/-! SUPPORT. The header word as a number and as the image of its fields (`30_encoding.md` R76, R81;
`10_state.md` R31, R33). -/

namespace Sys2Proof.Machine

/-! ## The word as a number -/

/-- Joining two bit vectors places the first above the bits of the second. -/
theorem toNat_append_eq_add {m n : Nat} (x : BitVec m) (y : BitVec n) :
    (x ++ y).toNat = x.toNat * 2 ^ n + y.toNat := by
  rw [BitVec.toNat_append, ← Nat.shiftLeft_add_eq_or_of_lt y.isLt, Nat.shiftLeft_eq]

theorem toNat_headerWord {m : OutputMessage} (h : m.length ≤ 1029) :
    (headerWord m).toNat =
      (protocolCode m.protocol).toNat * 2 ^ 22 + (if m.valid then 1 else 0) * 2 ^ 21 +
        (reasonCode m.reason).toNat * 2 ^ 18 + m.length := by
  have hlength : m.length % 2 ^ 11 = m.length := Nat.mod_eq_of_lt (by omega)
  have hvalid : (BitVec.ofBool m.valid).toNat = if m.valid then 1 else 0 := by
    cases m.valid <;> rfl
  simp only [headerWord, toNat_append_eq_add, hvalid, BitVec.toNat_ofNat, hlength]
  omega

/-- The codes of R31. -/
theorem protocolCode_mem (p : Protocol) :
    (p, (protocolCode p).toNat) ∈ [(Protocol.unknown, 0), (.rtcm3, 1), (.nmea, 2)] := by
  cases p <;> decide

/-- The codes of R33. -/
theorem reasonCode_mem (r : Reason) :
    (r, (reasonCode r).toNat) ∈ [(Reason.none, 0), (.invalidLength, 1), (.crcFail, 2),
      (.tooLong, 3), (.checksumFail, 4), (.noMessage, 5)] := by
  cases r <;> decide

/-! ## The word as the image of its fields -/

/-- A header word is the join of its five fields. -/
theorem headerWord_fields (h : HeaderWord) :
    h.extractLsb' 22 2 ++ BitVec.ofBool (h.getLsbD 21) ++ h.extractLsb' 18 3 ++ h.extractLsb' 11 7
      ++ h.extractLsb' 0 11 = h := by
  have hbit : BitVec.ofBool (h.getLsbD 21) = h.extractLsb' 21 1 := by
    ext i hi
    simp [show i = 0 by omega]
  rw [hbit]
  iterate 4 rw [BitVec.extractLsb'_append_extractLsb'_eq_extractLsb' (by decide)]
  exact BitVec.extractLsb'_eq_self

theorem protocolCode_of_protocolOfCode {c : BitVec 2} {p : Protocol}
    (h : protocolOfCode c = some p) : protocolCode p = c := by
  revert c
  cases p <;> decide

theorem reasonCode_of_reasonOfCode {c : BitVec 3} {r : Reason}
    (h : reasonOfCode c = some r) : reasonCode r = c := by
  revert c
  cases r <;> decide

/-- Everything an accepted word satisfies: no reserved code, no reserved bit, a length in range. -/
theorem decodeHeader_ok {h : HeaderWord} {f : HeaderFields} (e : decodeHeader h = .ok f) :
    protocolOfCode (h.extractLsb' 22 2) = some f.protocol ∧ f.valid = h.getLsbD 21 ∧
      reasonOfCode (h.extractLsb' 18 3) = some f.reason ∧ h.extractLsb' 11 7 = 0#7 ∧
      f.length = (h.extractLsb' 0 11).toNat ∧ f.length ≤ 1029 := by
  unfold decodeHeader at e
  split at e
  · cases e
  · cases e
  · split at e
    · cases e
    · split at e
      · cases e
      · cases e
        exact ⟨‹_›, rfl, ‹_›, not_not.mp ‹_›, rfl, Nat.not_lt.mp ‹_›⟩

/-- The decoder accepts only header words of the fields it gives, whatever the data. -/
theorem headerWord_of_decodeHeader {h : HeaderWord} {f : HeaderFields} (data : List Byte)
    (e : decodeHeader h = .ok f) :
    headerWord ⟨f.protocol, f.length, f.valid, f.reason, data⟩ = h := by
  obtain ⟨hprotocol, hvalid, hreason, hreserved, hlength, _⟩ := decodeHeader_ok e
  rw [headerWord, protocolCode_of_protocolOfCode hprotocol, reasonCode_of_reasonOfCode hreason,
    hvalid, hlength, BitVec.ofNat_toNat, BitVec.setWidth_eq, ← hreserved]
  exact headerWord_fields h

/-- Settles O6: the number, what the decoder reads of a header word, and what it accepts. -/
theorem headerWordRoundTrip : Obligations.HeaderWordRoundTrip := by
  unfold Obligations.HeaderWordRoundTrip
  exact ⟨fun m h =>
      ⟨_, _, toNat_headerWord h, protocolCode_mem m.protocol, reasonCode_mem m.reason⟩,
    fun _ => decodeHeader_headerWord, fun _ _ data => headerWord_of_decodeHeader data⟩

end Sys2Proof.Machine
end

section
/-! SUPPORT. Steps over the words of a pseudo-command (`30_encoding.md` R70, R80). -/

namespace Sys2Proof.Machine

/-! ## PUSH does not read the host's stream -/

theorem State.ringPush_setInbox (s : State) (l : List HostInput) (b : Byte) :
    (s.setInbox l).ringPush b = (s.ringPush b).setInbox l := by
  simp only [State.ringPush, apply_ite (fun t : State => t.setInbox l)]
  rfl

theorem State.enqueue_setInbox (s : State) (l : List HostInput) (d : Descriptor) :
    (s.setInbox l).enqueue d = (s.enqueue d).setInbox l := by
  simp only [State.enqueue_eq]
  rfl

theorem scanLoop_setInbox (fuel : Nat) (s : State) (l : List HostInput) (pos rem : Nat) :
    scanLoop fuel (s.setInbox l) pos rem =
      ((scanLoop fuel s pos rem).1.setInbox l, (scanLoop fuel s pos rem).2) := by
  induction fuel generalizing s pos rem with
  | zero => rfl
  | succ fuel ih =>
    rw [scanLoop_succ, scanLoop_succ,
      State.classify_congr (s.setInbox_config l) (s.setInbox_ring l)]
    split
    · rfl
    · cases s.classify pos rem with
      | incomplete => rfl
      | skip => exact ih s _ _
      | emit d adv =>
        simp only [State.enqueue_setInbox]
        exact ih (s.enqueue d) _ _

theorem State.scanPass_setInbox (s : State) (l : List HostInput) :
    (s.setInbox l).scanPass = s.scanPass.setInbox l := by
  simp only [State.scanPass, State.setInbox_available, State.setInbox_readPos, scanLoop_setInbox]
  rfl

theorem State.push_setInbox (s : State) (l : List HostInput) (b : Byte) :
    (s.setInbox l).push b = (s.push b).setInbox l := by
  simp only [State.push, State.ringPush_setInbox, State.scanPass_setInbox]
  rfl

/-! ## Runs of steps -/

/-- A run begins with the command at the head of the stream. -/
theorem run_succ_of_next {s t : State} (k : Nat) (h : step s = .next t) :
    Sys2Proof.core.run (k + 1) s = Sys2Proof.core.run k t := by
  simp only [Host.Core.run, Sys2Proof.core, h]

/-- The run over one command word. -/
theorem run_word {i : Instr} {w : CommandWord} {s : State} {rest : List HostInput}
    (hw : decode w = i) (h : s.inbox = .command w :: rest) :
    Sys2Proof.core.run 1 s = exec i (s.setInbox rest) := by
  simp only [Host.Core.run, Sys2Proof.core, step_of_command h, hw]
  cases exec i (s.setInbox rest) <;> rfl

/-- The steps over a run of PUSH words are the PUSHes, on the state with the words taken off. -/
theorem run_pushWords {α : Type} (byte : α → Byte) (items : List α) {s : State}
    {rest : List HostInput}
    (h : s.inbox = (items.map fun t => commandWord 0b00#2 (byte t)).map .command ++ rest) :
    Sys2Proof.core.run items.length s = .next ((s.setInbox rest).pushAll (items.map byte)) := by
  induction items generalizing s with
  | nil =>
    have hrest : s.setInbox rest = s := congrArg s.setInbox h.symm
    rw [hrest]
    rfl
  | cons t items ih =>
    have hstep := step_of_command h
    rw [decode_pushWord] at hstep
    rw [List.length_cons, run_succ_of_next _ hstep, ih (State.push_inbox _ _), List.map_cons,
      State.pushAll_cons, ← State.push_setInbox]
    rfl

/-- The steps over an instruction's words are the instruction. -/
theorem run_words {i : Instr} {words : List CommandWord} {s : State} {rest : List HostInput}
    (hwords : encode i = some words) (h : s.inbox = words.map .command ++ rest) :
    Sys2Proof.core.run words.length s = exec i (s.setInbox rest) := by
  cases i with
  | push b => cases hwords; exact run_word (decode_pushWord b) h
  | hasMessage x => cases hwords; exact run_word (decode_hasMessageWord x) h
  | nextMessage x => cases hwords; exact run_word (decode_nextMessageWord x) h
  | reset x => cases hwords; exact run_word (decode_resetWord x) h
  | pushs text =>
    cases hwords
    rw [List.length_map]
    exact run_pushWords StringPart.byte text h
  | pushb bytes =>
    cases hwords
    rw [List.length_map, run_pushWords id bytes h, List.map_id]
    rfl
  | _ => cases hwords

/-! ## The obligations -/

/-- Settles O9: one step for a command word, and for a pseudo-command one PUSH a byte. -/
theorem pseudoCommandsRunAsTheirExpansion : Obligations.PseudoCommandsRunAsTheirExpansion := by
  unfold Obligations.PseudoCommandsRunAsTheirExpansion
  exact fun _ _ _ _ => run_words

/-- Settles O27: both pseudo-commands are the run of PUSHes of the same bytes. -/
theorem pushsPushesTheBytesOfItsString : Obligations.PushsPushesTheBytesOfItsString := by
  unfold Obligations.PushsPushesTheBytesOfItsString
  refine ⟨fun text s hwrite => ⟨s.pushAll (text.map StringPart.byte), rfl, rfl, ?_, ?_,
    s.pushAll_config _, s.pushAll_inbox _, s.pushAll_returned _⟩,
    rfl, rfl, rfl, fun _ => rfl, fun _ => rfl⟩
  · rw [State.pushAll_writePos _ hwrite, List.length_map]
  · intro a ha
    exact State.readByte_pushAll_of_ne (by rwa [List.length_map])

end Sys2Proof.Machine
end

section
/-! SUPPORT. The assembler reads back the lines that `showLine` writes (`30_encoding.md` R79,
R80). -/

namespace Sys2Proof.Machine

theorem skipBlanks_space (text : List Char) : skipBlanks (' ' :: text) = skipBlanks text :=
  List.dropWhile_cons_of_pos rfl

theorem skipBlanks_of_not_blank {c : Char} (h : isBlank c = false) (text : List Char) :
    skipBlanks (c :: text) = c :: text :=
  List.dropWhile_cons_of_neg (by simp [h])

/-- A byte is written with no blank before it. -/
theorem skipBlanks_showByte (b : Byte) (rest : List Char) :
    skipBlanks (showByte b ++ rest) = showByte b ++ rest := skipBlanks_of_not_blank rfl _

/-! ## A byte with nothing after it -/

theorem skipBlanks_showByte_alone (b : Byte) : skipBlanks (showByte b) = showByte b :=
  skipBlanks_of_not_blank rfl _

theorem parseImm8_showByte_alone (b : Byte) : parseImm8 (showByte b) = some (b, []) := by
  simpa using parseImm8_showByte b []

/-! ## The list of a PUSHB -/

theorem parseImm8List_last (fuel : Nat) (b : Byte) :
    parseImm8List (fuel + 1) (showByte b) = some ([b], []) := by
  simp only [parseImm8List, skipBlanks_showByte_alone, parseImm8_showByte_alone]
  rfl

theorem parseImm8List_comma (fuel : Nat) (b : Byte) (rest : List Char) :
    parseImm8List (fuel + 1) (showByte b ++ ',' :: rest) =
      (parseImm8List fuel rest).map fun r => (b :: r.1, r.2) := by
  simp only [parseImm8List, skipBlanks_showByte, parseImm8_showByte]
  rw [skipBlanks_of_not_blank rfl]
  rfl

/-- Blanks before the list are skipped. -/
theorem parseImm8List_space (fuel : Nat) (text : List Char) :
    parseImm8List fuel (' ' :: text) = parseImm8List fuel text := by
  cases fuel with
  | zero => rfl
  | succ fuel => simp only [parseImm8List, skipBlanks_space]

/-- The list of a PUSHB as it is written. -/
def showBytes (bytes : List Byte) : List Char := List.intercalate [',', ' '] (bytes.map showByte)

theorem showBytes_cons_cons (b c : Byte) (bytes : List Byte) :
    showBytes (b :: c :: bytes) = showByte b ++ ',' :: ' ' :: showBytes (c :: bytes) := by
  simp [showBytes, List.intercalate]

theorem showBytes_singleton (b : Byte) : showBytes [b] = showByte b := by
  simp [showBytes, List.intercalate]

/-- A written list is at least as long as the bytes it lists, so its length is fuel enough. -/
theorem length_le_length_showBytes (bytes : List Byte) :
    bytes.length ≤ (showBytes bytes).length := by
  induction bytes with
  | nil => exact Nat.zero_le _
  | cons b bytes ih =>
    cases bytes with
    | nil => simp [showBytes_singleton, showByte]
    | cons c bytes =>
      rw [showBytes_cons_cons]
      simp only [List.length_append, List.length_cons] at ih ⊢
      omega

/-- A list is written with no blank before it. -/
theorem skipBlanks_showBytes (bytes : List Byte) :
    skipBlanks (showBytes bytes) = showBytes bytes := by
  match bytes with
  | [] => rfl
  | [b] => rw [showBytes_singleton, skipBlanks_showByte_alone]
  | b :: c :: bytes => rw [showBytes_cons_cons, skipBlanks_showByte]

theorem parseImm8List_showBytes {bytes : List Byte} (hne : bytes ≠ []) {fuel : Nat}
    (hfuel : bytes.length ≤ fuel) : parseImm8List fuel (showBytes bytes) = some (bytes, []) := by
  induction bytes generalizing fuel with
  | nil => exact absurd rfl hne
  | cons b bytes ih =>
    cases fuel with
    | zero => exact absurd hfuel (Nat.not_succ_le_zero _)
    | succ fuel =>
      cases bytes with
      | nil => rw [showBytes_singleton, parseImm8List_last]
      | cons c bytes =>
        rw [showBytes_cons_cons, parseImm8List_comma, parseImm8List_space,
          ih (List.cons_ne_nil c bytes) (Nat.le_of_succ_le_succ hfuel)]
        rfl

/-! ## The string of a PUSHS -/

/-- The three facts of a plain character that the reader needs: it stands for its byte, and it ends
no string and begins no escape. -/
theorem char_of_wf {c : Byte} (h : (StringPart.char c).wf = true) :
    charByte (Char.ofNat c.toNat) = some c ∧ Char.ofNat c.toNat ≠ '\x22' ∧
      Char.ofNat c.toNat ≠ '\x5c' := by
  revert c
  decide

/-- A character that neither ends the string nor begins an escape stands for itself. -/
theorem parseString_plain {c : Char} {b : Byte} (hbyte : charByte c = some b) (hquote : c ≠ '\x22')
    (hescape : c ≠ '\x5c') (rest : List Char) :
    parseString (c :: rest) = (parseString rest).map fun r => (.char b :: r.1, r.2) := by
  rw [parseString]
  · rw [hbyte]
    cases parseString rest <;> rfl
  all_goals simp [hquote, hescape]

/-- A written item reads back as that item, whatever follows it. -/
theorem parseString_showPart {p : StringPart} (h : p.wf = true) (rest : List Char) :
    parseString (showPart p ++ rest) =
      (parseString rest).map fun r => (p :: r.1, r.2) := by
  cases p with
  | char c =>
    obtain ⟨hbyte, hquote, hescape⟩ := char_of_wf h
    exact parseString_plain hbyte hquote hescape rest
  | escR | escN | escBackslash =>
    simp only [showPart, List.cons_append, List.nil_append, parseString]
  | escHex b =>
    simp only [showPart, hexChars, List.cons_append, List.nil_append, parseString,
      hexByte_hexChars]
    cases parseString rest <;> rfl

theorem parseString_showParts {parts : List StringPart} (h : ∀ p ∈ parts, p.wf = true) :
    parseString (parts.flatMap showPart ++ ['\x22']) = some (parts, []) := by
  induction parts with
  | nil => rfl
  | cons p parts ih =>
    obtain ⟨hp, hparts⟩ := List.forall_mem_cons.mp h
    rw [List.flatMap_cons, List.append_assoc, parseString_showPart hp, ih hparts]
    rfl

/-! ## Lines

The mnemonic is the longest run of name characters (log entry 16), so the blank after it ends it and
the rest of the line is the operands, whatever they are. -/

theorem asmLine_push {operands rest : List Char} {b : Byte}
    (h : parseImm8 (skipBlanks operands) = some (b, rest)) :
    asmLine ("PUSH ".toList ++ operands) = endOfLine (.push b) rest := by
  simp [asmLine, skipBlanks_of_not_blank, skipBlanks_space, isBlank, isNameChar, h]

theorem asmLine_pushs {body rest : List Char} {parts : List StringPart}
    (h : parseString body = some (parts, rest)) :
    asmLine ("PUSHS ".toList ++ '\x22' :: body) = endOfLine (.pushs parts) rest := by
  simp [asmLine, skipBlanks_of_not_blank, skipBlanks_space, isBlank, isNameChar, h]

theorem asmLine_pushb {operands rest : List Char} {bytes : List Byte}
    (h : parseImm8List (skipBlanks operands).length (skipBlanks operands) = some (bytes, rest)) :
    asmLine ("PUSHB ".toList ++ operands) = endOfLine (.pushb bytes) rest := by
  simp [asmLine, skipBlanks_of_not_blank, skipBlanks_space, isBlank, isNameChar, h]

/-- The three mnemonics that take no operand, each alone on its line. -/
theorem asmLine_hasMessage : asmLine "HAS_MESSAGE".toList = .ok (some (.hasMessage 0)) := by decide
theorem asmLine_nextMessage : asmLine "NEXT_MESSAGE".toList = .ok (some (.nextMessage 0)) := by
  decide
theorem asmLine_reset : asmLine "RESET".toList = .ok (some (.reset 0)) := by decide

/-- A command that ignores its field is written only when the field is zero. -/
theorem ignored_of_showLine {ignored : Byte} {name line : List Char}
    (h : (if ignored = 0 then some name else none) = some line) : ignored = 0 ∧ name = line := by
  simpa using h

/-! ## The obligation -/

/-- Settles O5: each written form reads back. -/
theorem assemblerReadsBackWhatItWrites : Obligations.AssemblerReadsBackWhatItWrites := by
  unfold Obligations.AssemblerReadsBackWhatItWrites
  intro i line hwf hline
  cases i with
  | push b =>
    cases hline
    exact asmLine_push (by rw [skipBlanks_showByte_alone, parseImm8_showByte_alone])
  | hasMessage ignored =>
    obtain ⟨rfl, rfl⟩ := ignored_of_showLine hline
    exact asmLine_hasMessage
  | nextMessage ignored =>
    obtain ⟨rfl, rfl⟩ := ignored_of_showLine hline
    exact asmLine_nextMessage
  | reset ignored =>
    obtain ⟨rfl, rfl⟩ := ignored_of_showLine hline
    exact asmLine_reset
  | pushs text =>
    cases hline
    exact asmLine_pushs (parseString_showParts (List.all_eq_true.mp hwf))
  | pushb bytes =>
    cases hline
    have hne : bytes ≠ [] := bne_iff_ne.mp hwf
    have hread := parseImm8List_showBytes hne (length_le_length_showBytes bytes)
    exact asmLine_pushb (operands := showBytes bytes) (by rw [skipBlanks_showBytes, hread])
  | _ => cases hline

end Sys2Proof.Machine
end

section
/-! SUPPORT. The ring buffer operations run on their own (`40_ring_buffer.md` R100 to R107). -/

namespace Sys2Proof.Machine

/-! ## RB_PUSH (R100, R101) -/

/-- Dropping the oldest byte of a full ring makes room for the new one. -/
theorem State.ringPush_of_full {s : State} (b : Byte) (h : s.available = s.config.N) :
    (s.ringPush b).readPos = s.addMod s.readPos 1 ∧ (s.ringPush b).available = s.available :=
  ⟨(s.ringPush_readPos b).trans (if_pos h), (s.ringPush_available b).trans (if_pos h)⟩

theorem State.ringPush_of_not_full {s : State} (b : Byte) (h : s.available ≠ s.config.N) :
    (s.ringPush b).readPos = s.readPos ∧ (s.ringPush b).available = s.available + 1 :=
  ⟨(s.ringPush_readPos b).trans (if_neg h), (s.ringPush_available b).trans (if_neg h)⟩

/-- Settles O33: the storage by read after write, the read side by the two cases of the ring. -/
theorem rbPushAppendsOneByte : Obligations.RbPushAppendsOneByte := by
  unfold Obligations.RbPushAppendsOneByte
  intro b s
  have hread := s.readByte_ringPush b
  exact ⟨s.ringPush b, rfl, (hread s.writePos).trans (if_pos rfl),
    fun a ha => (hread a).trans (if_neg ha), s.ringPush_writePos b, State.ringPush_of_full b,
    State.ringPush_of_not_full b, s.ringPush_queue b, s.ringPush_config b, s.ringPush_inbox b,
    s.ringPush_responses b, s.ringPush_returned b⟩

/-- Settles O34: within the capacity, the ring is full exactly when one more byte exceeds it. -/
theorem overflowTestAgreesWithTheClamp : Obligations.OverflowTestAgreesWithTheClamp := by
  unfold Obligations.OverflowTestAgreesWithTheClamp
  intro b s hle
  have hfull : s.available = s.config.N ↔ s.config.N < s.available + 1 := by omega
  refine ⟨s.ringPush b, rfl, ?_, ?_⟩
  · rw [State.ringPush_available]
    split <;> omega
  · simp only [State.ringPush_readPos, hfull]

/-! ## RB_READ_AT (R102) -/

/-- `dist_mod(i, j)` places after `i` stands `j` (`00_scope.md` R13). -/
theorem State.addMod_distMod {s : State} (i : Nat) {j : Nat} (h : j < s.config.N) :
    s.addMod i (s.distMod i j) = j := by
  have hi : i % s.config.N + (s.config.N - i % s.config.N) = s.config.N :=
    Nat.add_sub_cancel' (Nat.mod_lt i s.config.N_pos).le
  calc s.addMod i (s.distMod i j)
      = (i + (j + (s.config.N - i % s.config.N))) % s.config.N := Nat.add_mod_mod _ _ _
    _ = (i % s.config.N + (j + (s.config.N - i % s.config.N))) % s.config.N :=
        (Nat.mod_add_mod _ _ _).symm
    _ = (j + s.config.N) % s.config.N := by rw [Nat.add_left_comm, hi]
    _ = j := by rw [Nat.add_mod_right, Nat.mod_eq_of_lt h]

theorem exec_rbReadAt_of_lt {s : State} {offset : Nat} (h : offset < s.available) :
    exec (.rbReadAt offset) s = .next (s.returning (.byte (s.byteAt s.readPos offset))) :=
  if_pos h

theorem exec_rbReadAt_of_le {s : State} {offset : Nat} (h : s.available ≤ offset) :
    exec (.rbReadAt offset) s = .refused .readAtOutsideLive :=
  if_neg (Nat.not_lt.mpr h)

/-- Settles O35: the guard decides the call, and both reads are at the same index. -/
theorem rbReadAtReadsALiveByte : Obligations.RbReadAtReadsALiveByte := by
  unfold Obligations.RbReadAtReadsALiveByte
  refine fun offset s => ⟨exec_rbReadAt_of_lt, exec_rbReadAt_of_le, fun pos k hpos => ?_⟩
  rw [← State.addMod_addMod, State.addMod_distMod s.readPos hpos]

/-! ## RB_ADVANCE_READ (R104) -/

theorem exec_rbAdvanceRead_of_le {s : State} {n : Nat} (h : n ≤ s.available) :
    exec (.rbAdvanceRead n) s = .next (s.advanceRead n) :=
  if_pos h

theorem exec_rbAdvanceRead_of_lt {s : State} {n : Nat} (h : s.available < n) :
    exec (.rbAdvanceRead n) s = .refused .advanceBeyondLive :=
  if_neg (Nat.not_le.mpr h)

theorem State.advanceRead_zero {s : State} (h : s.readPos < s.config.N) : s.advanceRead 0 = s :=
  congrArg s.setReadPos (State.addMod_zero h)

/-- Settles O36: the guard decides the call, and the ring invariant places the write cursor where
the live bytes end. -/
theorem rbAdvanceReadDropsTheOldest : Obligations.RbAdvanceReadDropsTheOldest := by
  unfold Obligations.RbAdvanceReadDropsTheOldest
  refine fun n s => ⟨fun hn => ⟨s.advanceRead n, exec_rbAdvanceRead_of_le hn, rfl, fun hring => ?_⟩,
    exec_rbAdvanceRead_of_lt⟩
  have ⟨_, hread, _, hwrite⟩ := hring
  refine ⟨hring.advanceRead hn, ?_, ?_⟩
  · rintro rfl
    exact State.advanceRead_zero hread
  · rintro rfl
    exact hwrite.symm

/-! ## RB_SET_READ and RB_SET_AVAILABLE (R106, R107) -/

theorem exec_rbSetRead_of_lt {s : State} {p : Nat} (h : p < s.config.N) :
    exec (.rbSetRead p) s = .next (s.setReadPos p) :=
  if_pos h

theorem exec_rbSetAvailable_of_le {s : State} {n : Nat} (h : n ≤ s.config.N) :
    exec (.rbSetAvailable n) s = .next (s.setAvailable n) :=
  if_pos h

/-- The commit pair of a pass that leaves `rem` bytes live drops the oldest of the others. -/
theorem State.commit_eq_advanceRead {s : State} {rem : Nat} (h : rem ≤ s.available) :
    s.commit (s.addMod s.readPos (s.available - rem)) rem = s.advanceRead (s.available - rem) := by
  rw [State.commit, State.advanceRead, Nat.sub_sub_self h]

theorem RingOk.commit {s : State} {rem : Nat} (hring : RingOk s) (h : rem ≤ s.available) :
    RingOk (s.commit (s.addMod s.readPos (s.available - rem)) rem) := by
  rw [State.commit_eq_advanceRead h]
  exact hring.advanceRead (Nat.sub_le _ _)

/-- Settles O37: the pair is the commit of a pass, which drops the oldest bytes. -/
theorem commitPairKeepsTheRingInvariant : Obligations.CommitPairKeepsTheRingInvariant := by
  unfold Obligations.CommitPairKeepsTheRingInvariant
  refine fun s => ⟨fun _ => exec_rbSetRead_of_lt, fun _ => exec_rbSetAvailable_of_le,
    fun rem hring hrem => ?_⟩
  have ⟨_, _, hcapacity, _⟩ := hring
  exact ⟨_, s.commit (s.addMod s.readPos (s.available - rem)) rem,
    exec_rbSetRead_of_lt (s.addMod_lt _ _), exec_rbSetAvailable_of_le (hrem.trans hcapacity),
    hring.commit hrem, rfl⟩

end Sys2Proof.Machine
end

section
/-! SUPPORT. What PUSH does to the read side (`40_ring_buffer.md` R100; `42_frame_scanner.md` R170,
R171, R176). -/

namespace Sys2Proof.Machine

/-- Of the `live` bytes from the read cursor of `s` on, those no longer live in `t` are the oldest,
and the read cursor of `t` stands right after them. -/
structure AccountsFor (s : State) (live : Nat) (t : State) : Prop where
  config : t.config = s.config
  available_le : t.available ≤ live
  readPos : t.readPos = s.addMod s.readPos (live - t.available)

/-- The overflow of a full ring passes the oldest byte; with room no byte is passed. -/
theorem accountsFor_ringPush {s : State} (b : Byte) (hread : s.readPos < s.config.N) :
    AccountsFor s (s.available + 1) (s.ringPush b) := by
  by_cases h : s.available = s.config.N
  · obtain ⟨hpos, hlive⟩ := State.ringPush_of_full b h
    exact ⟨s.ringPush_config b, by omega, by rw [hpos, hlive, Nat.add_sub_cancel_left]⟩
  · obtain ⟨hpos, hlive⟩ := State.ringPush_of_not_full b h
    exact ⟨s.ringPush_config b, by omega,
      by rw [hpos, hlive, Nat.sub_self, State.addMod_zero hread]⟩

namespace AccountsFor
variable {s t : State} {live : Nat}

theorem advanceRead {n : Nat} (h : AccountsFor s live t) (hn : n ≤ t.available) :
    AccountsFor s live (t.advanceRead n) where
  config := h.config
  available_le := (Nat.sub_le _ n).trans h.available_le
  readPos := by
    have hle := h.available_le
    calc t.addMod t.readPos n
        = s.addMod (s.addMod s.readPos (live - t.available)) n := by
          rw [State.addMod_congr h.config, h.readPos]
      _ = s.addMod s.readPos (live - (t.available - n)) := by
          rw [State.addMod_addMod]
          congr 1
          omega

theorem enqueue (h : AccountsFor s live t) (d : Descriptor) :
    AccountsFor s live (t.enqueue d) := by
  rw [State.enqueue_eq]
  exact ⟨h.config, h.available_le, h.readPos⟩

/-- A turn of the scan moves on by the bytes it takes off the live count. -/
theorem keptByTurn (s : State) (live : Nat) : KeptByTurn (AccountsFor s live) where
  skip h hsix _ := h.advanceRead (by omega)
  emit {t d adv} h hsix hv := by
    obtain ⟨_, _, _, hadv, _⟩ := State.headVerdict_emit hsix hv
    exact (h.enqueue d).advanceRead (by simpa using hadv)

theorem scanPass (h : AccountsFor s live t) : AccountsFor s live t.scanPass :=
  ((keptByTurn s live).scanPass h).1

end AccountsFor

/-- Settles O23: the store and each turn of the pass account for every byte, and the ring invariant
bounds the live count by the capacity. -/
theorem pushMovesTheReadCursorByWhatItConsumed :
    Obligations.PushMovesTheReadCursorByWhatItConsumed := by
  unfold Obligations.PushMovesTheReadCursorByWhatItConsumed
  intro b s hring
  have ⟨_, hread, _⟩ := hring
  have hpass : AccountsFor s (s.available + 1) (s.ringPush b).scanPass :=
    (accountsFor_ringPush b hread).scanPass
  obtain ⟨_, _, hcapacity, _⟩ := (hring.ringPush b).scanPass
  rw [hpass.config] at hcapacity
  exact ⟨s.push b, rfl, Nat.le_min.mpr ⟨hpass.available_le, hcapacity⟩, hpass.readPos⟩

end Sys2Proof.Machine
end

section
/-! SUPPORT. Spans of stored bytes (`20_memory.md` R53): a span taken apart into its first byte and
the rest, or into two spans, and which bytes stand in it. -/

namespace Sys2Proof.Machine
variable (s : State) (p : Nat)

@[simp] theorem State.byteAt_zero : s.byteAt p 0 = s.readByte p := by
  simp [State.byteAt, State.readByte, State.addMod]

theorem State.readByte_addMod (k : Nat) : s.readByte (s.addMod p k) = s.byteAt p k := rfl

@[simp] theorem State.byteAt_addMod (i k : Nat) :
    s.byteAt (s.addMod p i) k = s.byteAt p (i + k) := by
  simp only [State.byteAt, State.addMod_addMod]

@[simp] theorem State.span_zero : s.span p 0 = [] := rfl

theorem State.span_add (m n : Nat) :
    s.span p (m + n) = s.span p m ++ s.span (s.addMod p m) n := by
  simp [State.span, List.range_add]

theorem State.span_succ (n : Nat) : s.span p (n + 1) = s.span p n ++ [s.byteAt p n] := by
  simp [State.span, List.range_succ]

theorem State.span_succ_left (n : Nat) :
    s.span p (n + 1) = s.byteAt p 0 :: s.span (s.addMod p 1) n := by
  rw [Nat.add_comm, State.span_add]
  rfl

variable {s p}

theorem State.mem_span {n : Nat} {b : Byte} : b ∈ s.span p n ↔ ∃ k < n, s.byteAt p k = b := by
  simp [State.span]

theorem State.span_eq_cons_iff {n : Nat} {b : Byte} {l : List Byte} :
    s.span p n = b :: l ↔
      n = l.length + 1 ∧ s.byteAt p 0 = b ∧ s.span (s.addMod p 1) l.length = l := by
  constructor
  · intro h
    obtain rfl : n = l.length + 1 := by simpa using congrArg List.length h
    rw [State.span_succ_left] at h
    obtain ⟨hb, hl⟩ := List.cons.inj h
    exact ⟨rfl, hb, hl⟩
  · rintro ⟨rfl, rfl, hl⟩
    rw [State.span_succ_left, hl]

theorem State.span_eq_append_iff {n : Nat} {l₁ l₂ : List Byte} :
    s.span p n = l₁ ++ l₂ ↔
      n = l₁.length + l₂.length ∧ s.span p l₁.length = l₁ ∧
        s.span (s.addMod p l₁.length) l₂.length = l₂ := by
  constructor
  · intro h
    obtain rfl : n = l₁.length + l₂.length := by simpa using congrArg List.length h
    rw [State.span_add] at h
    obtain ⟨h₁, h₂⟩ := List.append_inj h (s.length_span p _)
    exact ⟨rfl, h₁, h₂⟩
  · rintro ⟨rfl, h₁, h₂⟩
    rw [State.span_add, h₁, h₂]

end Sys2Proof.Machine
end


section
/-! SUPPORT. CRC-24Q (`41_validators.md` R120 to R126): a shift of the working value is linear and
loses no information, which gives the printed table, the equality of the two forms and the residue. -/

namespace Sys2Proof.Machine

/-! ## Shifts of the working value -/

/-- The polynomial, without its bit 24, when a shift adds it. -/
def crcFeedback (out : Bool) : Crc := if out then 0x864CFB#24 else 0#24

theorem crcFeedback_xor (a b : Bool) : crcFeedback (a ^^ b) = crcFeedback a ^^^ crcFeedback b := by
  cases a <;> cases b <;> rfl

theorem crcShift_eq (v : Crc) : crcShift v = (v <<< 1) ^^^ crcFeedback (v.getLsbD 23) := by
  unfold crcShift crcFeedback
  split
  · rw [BitVec.setWidth_xor]
    congr 1
    ext i hi
    simp
  · rw [BitVec.xor_zero]

theorem crcShift_xor (v w : Crc) : crcShift (v ^^^ w) = crcShift v ^^^ crcShift w := by
  simp only [crcShift_eq, BitVec.shiftLeft_xor_distrib, BitVec.getLsbD_xor, crcFeedback_xor]
  ac_rfl

theorem crcShifts_xor (n : Nat) (v w : Crc) :
    crcShifts n (v ^^^ w) = crcShifts n v ^^^ crcShifts n w := by
  induction n generalizing v w with
  | zero => rfl
  | succ n ih => simp only [crcShifts, crcShift_xor, ih]

/-- The polynomial is odd, so the bit that left can be read off the lowest bit. -/
theorem getLsbD_zero_crcShift (v : Crc) : (crcShift v).getLsbD 0 = v.getLsbD 23 := by
  rw [crcShift_eq, BitVec.getLsbD_xor]
  cases v.getLsbD 23 <;> simp [crcFeedback]

theorem crcShift_injective : Function.Injective crcShift := by
  intro v w h
  have hout : v.getLsbD 23 = w.getLsbD 23 := by
    rw [← getLsbD_zero_crcShift, h, getLsbD_zero_crcShift]
  have hkept : v <<< 1 = w <<< 1 := by
    rw [crcShift_eq, crcShift_eq, hout] at h
    exact (BitVec.xor_left_inj _).mp h
  apply BitVec.eq_of_getLsbD_eq
  intro i hi
  by_cases htop : i = 23
  · rw [htop, hout]
  · have hbit := congrArg (BitVec.getLsbD · (i + 1)) hkept
    simpa [show i + 1 < 24 by omega, BitVec.getLsbD_eq_getElem hi] using hbit

theorem crcShifts_injective (n : Nat) : Function.Injective (crcShifts n) := by
  induction n with
  | zero => exact fun _ _ h => h
  | succ n ih => exact ih.comp crcShift_injective

/-- While no bit leaves, the polynomial is never added. -/
theorem crcShifts_eq_shiftLeft {n : Nat} {v : Crc} (h : ∀ i, 24 ≤ i + n → v.getLsbD i = false) :
    crcShifts n v = v <<< n := by
  induction n generalizing v with
  | zero => rw [BitVec.shiftLeft_zero]; rfl
  | succ n ih =>
    have hshift : crcShift v = v <<< 1 := by
      rw [crcShift_eq, h 23 (by omega)]
      exact BitVec.xor_zero
    have hnext : ∀ i, 24 ≤ i + n → (v <<< 1).getLsbD i = false := by
      intro i hi
      rw [BitVec.getLsbD_shiftLeft, h (i - 1) (by omega), Bool.and_false]
    rw [crcShifts, hshift, ih hnext, ← BitVec.shiftLeft_add, Nat.add_comm]

/-- Eight shifts: the top byte goes through the table, the others move up by a byte. -/
theorem crcShifts_eight (v : Crc) :
    crcShifts 8 v = (v <<< 8) ^^^ crcTableEntry (v.extractLsb' 16 8) := by
  have hsplit : v = (v.extractLsb' 0 16).setWidth 24 ^^^ (v.extractLsb' 16 8).setWidth 24 <<< 16 := by
    ext i hi
    by_cases hlow : i < 16
    · simp [hlow, BitVec.getLsbD_eq_getElem hi]
    · simp [hlow, show i - 16 < 8 by omega, show 16 + (i - 16) = i by omega,
        BitVec.getLsbD_eq_getElem hi]
  have hmove : (v.extractLsb' 0 16).setWidth 24 <<< 8 = v <<< 8 := by
    ext i hi
    simp [show i - 8 < 16 by omega, BitVec.getLsbD_eq_getElem (show i - 8 < 24 by omega)]
  conv_lhs => rw [hsplit]
  rw [crcShifts_xor, crcShifts_eq_shiftLeft, hmove]
  · rfl
  · intro i hi
    simp [show ¬i < 16 by omega]

/-! ## The printed table (R120) -/

/-- The 32 entries from entry `first` on, computed from the polynomial. -/
def crcEntries (first : Nat) : List Crc :=
  (List.range' first 32).map fun i => crcTableEntry (BitVec.ofNat 8 i)

/-- Each printed block holds the entries the polynomial gives. -/
theorem crcRom_blocks :
    crcRom0 = crcEntries 0x00 ∧ crcRom1 = crcEntries 0x20 ∧ crcRom2 = crcEntries 0x40 ∧
    crcRom3 = crcEntries 0x60 ∧ crcRom4 = crcEntries 0x80 ∧ crcRom5 = crcEntries 0xA0 ∧
    crcRom6 = crcEntries 0xC0 ∧ crcRom7 = crcEntries 0xE0 :=
  ⟨by decide, by decide, by decide, by decide, by decide, by decide, by decide, by decide⟩

theorem crcRom_eq_map :
    crcRom = (List.range 256).map fun i => crcTableEntry (BitVec.ofNat 8 i) := by
  obtain ⟨h0, h1, h2, h3, h4, h5, h6, h7⟩ := crcRom_blocks
  simp only [crcRom, h0, h1, h2, h3, h4, h5, h6, h7, crcEntries, ← List.map_append,
    List.range_eq_range', List.range'_append_1 (s := 0)]

theorem length_crcRom : crcRom.length = 256 := by
  rw [crcRom_eq_map, List.length_map, List.length_range]

theorem crcRomAt_eq (i : Byte) : crcRomAt i = crcTableEntry i := by
  have hi : i.toNat < 256 := i.isLt
  simp [crcRomAt, crcRom_eq_map, hi]

theorem crcRomAt_zero : crcRomAt 0#8 = 0#24 := rfl

/-- Settles O39: the printed table is the computed one. -/
theorem crcTableEntryIsTheRomEntry : Obligations.CrcTableEntryIsTheRomEntry := by
  unfold Obligations.CrcTableEntryIsTheRomEntry
  refine ⟨length_crcRom, fun i s => ?_⟩
  rw [crcRomAt_eq]
  rfl

/-! ## The two forms (R124, R125) -/

/-- A byte moved up to the top of the register. -/
theorem extractLsb'_top (b : Byte) : (b.setWidth 24 <<< 16).extractLsb' 16 8 = b := by
  ext i hi
  simp [show 16 + i < 24 by omega, BitVec.getLsbD_eq_getElem hi]

/-- A byte is added to the top byte of the register, in either form. -/
theorem crcUpdateBitwise_eq (c : Crc) (b : Byte) : crcUpdateBitwise c b = crcUpdate c b := by
  have hkept : (c ^^^ b.setWidth 24 <<< 16) <<< 8 = c <<< 8 := by
    ext i hi
    simp [show i - 8 < 16 by omega]
  have htop : (c ^^^ b.setWidth 24 <<< 16).extractLsb' 16 8 = c.extractLsb' 16 8 ^^^ b := by
    rw [BitVec.extractLsb'_xor, extractLsb'_top]
  rw [crcUpdateBitwise, crcUpdate, crcShifts_eight, hkept, htop, crcRomAt_eq]

theorem crcOfBytesBitwise_eq (bytes : List Byte) : crcOfBytesBitwise bytes = crcOfBytes bytes := by
  rw [crcOfBytesBitwise, crcOfBytes, funext₂ crcUpdateBitwise_eq]

theorem State.crc24q_succ (s : State) (p n : Nat) :
    s.crc24q p (n + 1) = crcUpdate (s.crc24q p n) (s.byteAt p n) := by
  simp [State.crc24q, crcOfBytes, State.span_succ]

theorem setWidth_ushiftRight_sixteen (c : Crc) :
    (c >>> 16).setWidth 8 = c.extractLsb' 16 8 := rfl

/-- Settles O40: the last byte of a longer span is one turn of the recurrence. -/
theorem crc24qFollowsTheRecurrence : Obligations.Crc24qFollowsTheRecurrence := by
  unfold Obligations.Crc24qFollowsTheRecurrence
  refine fun p n s => ⟨s.crc24q p n, rfl, rfl, ?_⟩
  rw [setWidth_ushiftRight_sixteen]
  change Host.Outcome.next (s.returning (.crc (s.crc24q p (n + 1)))) = _
  rw [State.crc24q_succ]
  rfl

/-- Settles O41: the forms agree byte by byte. -/
theorem crcBitwiseFormEqualsTableForm : Obligations.CrcBitwiseFormEqualsTableForm := by
  unfold Obligations.CrcBitwiseFormEqualsTableForm
  refine fun bytes p n s => ⟨crcOfBytesBitwise_eq bytes, ?_⟩
  rw [crcOfBytesBitwise_eq]
  rfl

/-! ## The residue (R126) -/

/-- The register's own top byte cancels it. -/
theorem crcUpdate_top (c : Crc) : crcUpdate c (c.extractLsb' 16 8) = c <<< 8 := by
  rw [crcUpdate, BitVec.xor_self, crcRomAt_zero, BitVec.xor_zero]

/-- The bytes of a register, pushed through it, move it out byte by byte. -/
theorem foldl_crcUpdate_crcBytes (c : Crc) : (crcBytes c).foldl crcUpdate c = 0#24 := by
  have hmiddle : c.extractLsb' 8 8 = (c <<< 8).extractLsb' 16 8 := by
    ext i hi
    simp [show 16 + i < 24 by omega, show ¬16 + i < 8 by omega, show 16 + i - 8 = 8 + i by omega,
      BitVec.getLsbD_eq_getElem (show 8 + i < 24 by omega)]
  have hlow : c.extractLsb' 0 8 = (c <<< 8 <<< 8).extractLsb' 16 8 := by
    ext i hi
    simp [show 16 + i < 24 by omega, BitVec.getLsbD_eq_getElem (show i < 24 by omega)]
  calc (crcBytes c).foldl crcUpdate c
      = crcUpdate (crcUpdate (crcUpdate c (c.extractLsb' 16 8)) (c.extractLsb' 8 8))
          (c.extractLsb' 0 8) := rfl
    _ = c <<< 8 <<< 8 <<< 8 := by
        rw [crcUpdate_top, hmiddle, crcUpdate_top, hlow, crcUpdate_top]
    _ = 0#24 := by simp [← BitVec.shiftLeft_add]

/-- Settles O42: the CRC's own bytes empty the register. -/
theorem crcResidueIsZero : Obligations.CrcResidueIsZero := by
  unfold Obligations.CrcResidueIsZero
  intro m
  rw [crcOfBytes, List.foldl_append]
  exact foldl_crcUpdate_crcBytes (crcOfBytes m)

end Sys2Proof.Machine
end

section
/-! SUPPORT. RTCM3_VALIDATE (`41_validators.md` R128, R129): its two length masks, the comparison
with the received CRC, and that no change of one payload byte passes it. -/

namespace Sys2Proof.Machine

/-! ## The two lengths (R129) -/

theorem detectionLength_eq (b1 b2 : Byte) :
    detectionLength b1 b2 = b1.toNat % 16 * 256 + b2.toNat := by
  rw [detectionLength, toNat_append_eq_add, BitVec.extractLsb'_toNat, Nat.shiftRight_zero]
  rfl

theorem validationLength_eq (b1 b2 : Byte) :
    validationLength b1 b2 = b1.toNat % 4 * 256 + b2.toNat := by
  rw [validationLength, toNat_append_eq_add, BitVec.extractLsb'_toNat, Nat.shiftRight_zero]
  rfl

/-- Within the bound the two bits that validation leaves out are 0. -/
theorem validationLength_of_detectionLength_le {b1 b2 : Byte} (h : detectionLength b1 b2 ≤ 1023) :
    validationLength b1 b2 = detectionLength b1 b2 := by
  rw [detectionLength_eq] at h ⊢
  rw [validationLength_eq]
  omega

/-- Settles O45: the masks as remainders. -/
theorem lengthMasksAgreeWithinTheBound : Obligations.LengthMasksAgreeWithinTheBound := by
  unfold Obligations.LengthMasksAgreeWithinTheBound
  exact fun b1 b2 => ⟨detectionLength_eq b1 b2, validationLength_eq b1 b2,
    validationLength_of_detectionLength_le⟩

/-! ## The comparison (R128) -/

/-- How many bytes the CRC of the frame at `p` covers: the header and the payload. -/
def State.crcSpanLength (s : State) (p : Nat) : Nat :=
  validationLength (s.byteAt p 1) (s.byteAt p 2) + 3

theorem State.rtcm3Validate_iff (s : State) (p : Nat) :
    s.rtcm3Validate p = true ↔
      s.crc24q p (s.crcSpanLength p) = s.receivedCrc p (s.crcSpanLength p) :=
  beq_iff_eq

theorem State.toNat_receivedCrc (s : State) (p k : Nat) :
    (s.receivedCrc p k).toNat =
      (s.byteAt p k).toNat * 65536 + (s.byteAt p (k + 1)).toNat * 256
        + (s.byteAt p (k + 2)).toNat := by
  simp only [State.receivedCrc, bigEndian24, toNat_append_eq_add]
  omega

/-- Settles O43: the comparison of the two CRCs, read as numbers. -/
theorem rtcm3ValidateComparesTheCrc : Obligations.Rtcm3ValidateComparesTheCrc := by
  unfold Obligations.Rtcm3ValidateComparesTheCrc
  refine fun p s => ⟨s.rtcm3Validate p, rfl, fun len hlen => ?_⟩
  have hspan : s.crcSpanLength p = len := by rw [State.crcSpanLength, validationLength_eq, hlen]
  rw [State.rtcm3Validate_iff, hspan, ← BitVec.toNat_inj, State.toNat_receivedCrc,
    crcOfBytesBitwise_eq]
  rfl

/-! ## One byte changed (R124) -/

theorem crcUpdate_injective_crc (b : Byte) : Function.Injective (crcUpdate · b) := by
  intro c c' h
  simp only [← crcUpdateBitwise_eq, crcUpdateBitwise] at h
  exact (BitVec.xor_left_inj _).mp (crcShifts_injective 8 h)

theorem crcUpdate_injective_byte (c : Crc) : Function.Injective (crcUpdate c) := by
  intro b b' h
  simp only [← crcUpdateBitwise_eq, crcUpdateBitwise] at h
  have htop := (BitVec.xor_right_inj _).mp (crcShifts_injective 8 h)
  rw [← extractLsb'_top b, htop, extractLsb'_top]

theorem foldl_crcUpdate_injective (bytes : List Byte) :
    Function.Injective (bytes.foldl crcUpdate) := by
  induction bytes with
  | nil => exact fun _ _ h => h
  | cons b bytes ih => exact ih.comp (crcUpdate_injective_crc b)

/-- One byte of a message decides its CRC, the others being fixed. -/
theorem crcOfBytes_set_ne {bytes : List Byte} {k : Nat} {v : Byte} (hk : k < bytes.length)
    (hv : v ≠ bytes[k]) : crcOfBytes (bytes.set k v) ≠ crcOfBytes bytes := by
  intro h
  have hset : bytes.set k v = bytes.take k ++ v :: bytes.drop (k + 1) := by
    rw [List.set_eq_take_append_cons_drop, if_pos hk]
  have hself : bytes = bytes.take k ++ bytes[k] :: bytes.drop (k + 1) := by
    rw [List.cons_getElem_drop_succ, List.take_append_drop]
  rw [hset] at h
  conv_rhs at h => rw [hself]
  simp only [crcOfBytes, List.foldl_append, List.foldl_cons] at h
  exact hv (crcUpdate_injective_byte _ (foldl_crcUpdate_injective _ h))

/-- Within one turn of the ring a store changes the one byte at its offset. -/
theorem State.byteAt_writeByte {s : State} {p i k : Nat} {v : Byte} (hi : i < s.config.N)
    (hk : k < s.config.N) :
    (s.writeByte (s.addMod p k) v).byteAt p i = if i = k then v else s.byteAt p i := by
  have hsame : s.addMod p i = s.addMod p k ↔ i = k :=
    ⟨State.addMod_inj hi hk, fun h => h ▸ rfl⟩
  simp only [State.byteAt, State.addMod_congr (s.writeByte_config (s.addMod p k) v),
    State.readByte_writeByte, State.addMod_mod, hsame]

theorem State.span_writeByte {s : State} {p n k : Nat} {v : Byte} (hn : n ≤ s.config.N)
    (hk : k < s.config.N) :
    (s.writeByte (s.addMod p k) v).span p n = (s.span p n).set k v := by
  apply List.ext_getElem
  · simp
  · intro i hi hi'
    rw [State.length_span] at hi
    rw [State.getElem_span, State.byteAt_writeByte (by omega) hk, List.getElem_set,
      State.getElem_span]
    simp only [eq_comm]

/-- The CRC changes with a payload byte, while the length and the received CRC stay. -/
theorem State.rtcm3Validate_writeByte {s : State} {p k len : Nat} {v : Byte}
    (hspan : s.crcSpanLength p = len) (hfits : len + 3 ≤ s.config.N) (hheader : 3 ≤ k)
    (hpayload : k < len) (hv : v ≠ s.byteAt p k) (hvalid : s.rtcm3Validate p = true) :
    (s.writeByte (s.addMod p k) v).rtcm3Validate p = false := by
  set t := s.writeByte (s.addMod p k) v with ht
  have hbyte : ∀ i, i ≠ k → i < s.config.N → t.byteAt p i = s.byteAt p i := fun i hne hi =>
    (State.byteAt_writeByte hi (by omega)).trans (if_neg hne)
  have hlen : t.crcSpanLength p = len := by
    rw [← hspan, State.crcSpanLength, State.crcSpanLength, hbyte 1 (by omega) (by omega),
      hbyte 2 (by omega) (by omega)]
  have hreceived : t.receivedCrc p len = s.receivedCrc p len := by
    simp only [State.receivedCrc]
    rw [hbyte len (by omega) (by omega), hbyte (len + 1) (by omega) (by omega),
      hbyte (len + 2) (by omega) (by omega)]
  have hcrc : t.crc24q p len ≠ s.crc24q p len := by
    simp only [State.crc24q, ht]
    rw [State.span_writeByte (by omega) (by omega)]
    exact crcOfBytes_set_ne (by simpa using hpayload) (by rwa [State.getElem_span])
  rw [State.rtcm3Validate_iff, hspan] at hvalid
  rw [← Bool.not_eq_true, State.rtcm3Validate_iff, hlen, hreceived, ← hvalid]
  exact hcrc

/-- Settles O44: the call that returned 1 says the frame validated, and the CRC then differs. -/
theorem corruptedPayloadByteFailsTheCrc : Obligations.CorruptedPayloadByteFailsTheCrc := by
  unfold Obligations.CorruptedPayloadByteFailsTheCrc
  intro p k v s len hfits hheader hpayload hv hreturned
  have hvalid : s.rtcm3Validate p = true :=
    Returned.bit.inj (congrArg State.returned (Host.Outcome.next.inj hreturned))
  have hfails := State.rtcm3Validate_writeByte rfl hfits hheader hpayload hv hvalid
  exact congrArg
    (fun ok => Host.Outcome.next ((s.writeByte (s.addMod p k) v).returning (.bit ok))) hfails

end Sys2Proof.Machine
end

section
/-! SUPPORT. The NMEA checksum (`41_validators.md` R130 to R134): the digits, the XOR of a span, and
when the check of a sentence passes. -/

namespace Sys2Proof.Machine

/-! ## NMEA_HEXVAL (R130) -/

/-- Settles O46: the three ranges exclude one another, and each value fits four bits. -/
theorem nmeaHexvalReadsOneDigit : Obligations.NmeaHexvalReadsOneDigit := by
  unfold Obligations.NmeaHexvalReadsOneDigit
  refine fun c s => ⟨hexVal c, rfl, fun h => ?_, fun h => ?_, fun h => ?_, fun h => ?_⟩ <;>
    unfold hexVal
  · rw [if_pos h, Option.map_some, BitVec.toNat_ofNat, Nat.mod_eq_of_lt (by omega)]
  · rw [if_neg (by omega), if_pos h, Option.map_some, BitVec.toNat_ofNat,
      Nat.mod_eq_of_lt (by omega)]
  · rw [if_neg (by omega), if_neg (by omega), if_pos h, Option.map_some, BitVec.toNat_ofNat,
      Nat.mod_eq_of_lt (by omega)]
  · rw [if_neg (by omega), if_neg (by omega), if_neg (by omega)]

/-! ## NMEA_XOR (R132) -/

/-- The XOR of a list of bytes, from 0. -/
abbrev xorOfBytes (bytes : List Byte) : Byte := bytes.foldl (· ^^^ ·) 0#8

theorem State.drop_span (s : State) (p a b : Nat) :
    (s.span p b).drop a = (List.range' a (b - a)).map (s.byteAt p) := by
  rw [State.span, ← List.map_drop, List.range_eq_range', List.drop_range', Nat.zero_add,
    Nat.mul_one]

theorem State.nmeaXor_eq (s : State) (p a b : Nat) :
    s.nmeaXor p a b = xorOfBytes ((s.span p b).drop a) := by
  rw [State.drop_span, xorOfBytes, List.foldl_map]
  rfl

/-- Settles O47: the offsets `a` to `b - 1` are those of the span without its first `a` bytes. -/
theorem nmeaXorFoldsTheSpan : Obligations.NmeaXorFoldsTheSpan := by
  unfold Obligations.NmeaXorFoldsTheSpan
  intro p a b s
  change Host.Outcome.next (s.returning (.byte (s.nmeaXor p a b))) = _
  rw [State.nmeaXor_eq]
  rfl

/-! ## NMEA_VALIDATE (R134) -/

/-- The star at offset `star` of the sentence at `p` is its first one, and the two digits after it
give the XOR of what stands between the marker and the star. -/
structure State.ChecksumAt (s : State) (p star : Nat) (h1 h2 : BitVec 4) : Prop where
  one_le : 1 ≤ star
  isStar : s.byteAt p star = 0x2A#8
  first : ∀ k, 1 ≤ k → k < star → s.byteAt p k ≠ 0x2A#8
  high : hexVal (s.byteAt p (star + 1)) = some h1
  low : hexVal (s.byteAt p (star + 2)) = some h2
  xor_eq : xorOfBytes ((s.span p star).drop 1) = hexPair h1 h2

theorem State.firstStar_eq_some_iff {s : State} {p len star : Nat} (hlen : 2 ≤ len) :
    s.firstStar p len = some star ↔
      (1 ≤ star ∧ star < len - 1) ∧ s.byteAt p star = 0x2A#8 ∧
        ∀ k, 1 ≤ k → k < star → s.byteAt p k ≠ 0x2A#8 := by
  unfold State.firstStar
  rw [List.find?_range'_eq_some, List.mem_range'_1]
  simp only [beq_iff_eq, Bool.not_eq_true', beq_eq_false_iff_ne]
  have hrange : 1 + (len - 2) = len - 1 := by omega
  rw [hrange]
  tauto

theorem State.nmeaValidate_iff {s : State} {p len : Nat} (hlen : 2 ≤ len) :
    s.nmeaValidate p len = true ↔
      ∃ star h1 h2, star + 2 ≤ len - 2 ∧ s.ChecksumAt p star h1 h2 := by
  constructor
  · intro h
    unfold State.nmeaValidate at h
    split at h
    · cases h
    · rename_i star hstar
      obtain ⟨⟨hone, _⟩, hbyte, hfirst⟩ := (State.firstStar_eq_some_iff hlen).mp hstar
      split at h
      · cases h
      · split at h
        · rename_i h1 h2 hhigh hlow
          rw [beq_iff_eq, State.nmeaXor_eq] at h
          exact ⟨star, h1, h2, by omega, hone, hbyte, hfirst, hhigh, hlow, h⟩
        · cases h
  · rintro ⟨star, h1, h2, hroom, hc⟩
    have hstar : s.firstStar p len = some star :=
      (State.firstStar_eq_some_iff hlen).mpr ⟨⟨hc.one_le, by omega⟩, hc.isStar, hc.first⟩
    simp [State.nmeaValidate, hstar, hc.high, hc.low, State.nmeaXor_eq, hc.xor_eq, hroom,
      -List.drop_one]

/-- Settles O48: the search finds the first star, and the rest of the check is at that star. -/
theorem nmeaValidateChecksTheFirstStar : Obligations.NmeaValidateChecksTheFirstStar := by
  unfold Obligations.NmeaValidateChecksTheFirstStar
  refine fun p len s hlen => ⟨s.nmeaValidate p len, rfl, (State.nmeaValidate_iff hlen).trans ?_⟩
  constructor
  · rintro ⟨star, h1, h2, hroom, hc⟩
    exact ⟨star, h1, h2, hc.one_le, hroom, hc.isStar, hc.first, hc.high, hc.low, hc.xor_eq⟩
  · rintro ⟨star, h1, h2, hone, hroom, hbyte, hfirst, hhigh, hlow, hxor⟩
    exact ⟨star, h1, h2, hroom, hone, hbyte, hfirst, hhigh, hlow, hxor⟩

end Sys2Proof.Machine
end

section
/-! SUPPORT. The verdict of a validator against what a message is: an RTCM3 frame (`42_frame_scanner.md`
R152; `41_validators.md` R128) and an NMEA sentence (R162; R134) as spans of stored bytes. -/

namespace Sys2Proof.Machine
variable {s : State} {p : Nat}

/-! ## RTCM3 frames -/

theorem crcBytes_bigEndian24 (x y z : Byte) : crcBytes (bigEndian24 x y z) = [x, y, z] := by
  have hx : (bigEndian24 x y z).extractLsb' 16 8 = x := by
    unfold bigEndian24
    rw [BitVec.extractLsb'_append_eq_of_le (by decide)]
    exact BitVec.extractLsb'_append_eq_left
  have hy : (bigEndian24 x y z).extractLsb' 8 8 = y := by
    unfold bigEndian24
    rw [BitVec.extractLsb'_append_eq_of_le (by decide)]
    exact BitVec.extractLsb'_append_eq_right
  have hz : (bigEndian24 x y z).extractLsb' 0 8 = z := BitVec.extractLsb'_append_eq_right
  rw [crcBytes, hx, hy, hz]

theorem crcBytes_injective : Function.Injective crcBytes := by
  intro c c' h
  have hjoin : ∀ d : Crc, d.extractLsb' 16 8 ++ d.extractLsb' 8 8 ++ d.extractLsb' 0 8 = d := by
    intro d
    iterate 2 rw [BitVec.extractLsb'_append_extractLsb'_eq_extractLsb' (by decide)]
    exact BitVec.extractLsb'_eq_self
  simp only [crcBytes, List.cons.injEq] at h
  obtain ⟨hhigh, hmiddle, hlow, _⟩ := h
  rw [← hjoin c, hhigh, hmiddle, hlow, hjoin]

/-- The received CRC is `c` exactly when its three bytes are those of `c`. -/
theorem State.receivedCrc_eq_iff {k : Nat} {c : Crc} :
    s.receivedCrc p k = c ↔ s.span (s.addMod p k) 3 = crcBytes c := by
  have hbytes : s.span (s.addMod p k) 3 = crcBytes (s.receivedCrc p k) := by
    rw [State.receivedCrc, crcBytes_bigEndian24]
    simp [State.span, List.range_succ, State.readByte_addMod]
  rw [hbytes]
  exact crcBytes_injective.eq_iff.symm

/-- The header of a frame and what follows it. -/
theorem State.span_header (n : Nat) :
    s.span p (n + 3) =
      s.readByte p :: s.byteAt p 1 :: s.byteAt p 2 :: s.span (s.addMod p 3) n := by
  simp [State.span_succ_left, State.addMod_addMod, State.readByte_addMod]

/-- A frame of a length within the bound validates exactly when it ends in the CRC of the rest. -/
theorem State.rtcm3Validate_iff_span {n : Nat}
    (hn : detectionLength (s.byteAt p 1) (s.byteAt p 2) = n) (hmax : n ≤ 1023) :
    s.rtcm3Validate p = true ↔
      s.span (s.addMod p (n + 3)) 3 = crcBytes (crcOfBytesBitwise (s.span p (n + 3))) := by
  have hlen : s.crcSpanLength p = n + 3 := by
    rw [State.crcSpanLength, validationLength_of_detectionLength_le (by omega), hn]
  rw [State.rtcm3Validate_iff, hlen, eq_comm, State.receivedCrc_eq_iff, crcOfBytesBitwise_eq]
  rfl

/-- A frame validates exactly when its bytes are a correct frame. -/
theorem isRtcmFrame_span_iff {n : Nat} (hbyte : s.readByte p = rtcmPreamble)
    (hn : detectionLength (s.byteAt p 1) (s.byteAt p 2) = n) (hmax : n ≤ 1023) :
    IsRtcmFrame (s.span p (n + 6)) ↔ s.rtcm3Validate p = true := by
  rw [State.rtcm3Validate_iff_span hn hmax, State.span_header n, hbyte,
    show n + 6 = n + 3 + 3 from rfl, State.span_header (n + 3), hbyte, Nat.add_comm n 3,
    ← State.addMod_addMod]
  rw [detectionLength_eq] at hn
  constructor
  · rintro ⟨b1, b2, payload, hl, hlen, _⟩
    simp only [List.cons.injEq, true_and] at hl
    obtain ⟨rfl, rfl, hrest⟩ := hl
    obtain rfl : n = payload.length := hn.symm.trans hlen
    rw [Nat.add_comm] at hrest
    obtain ⟨_, hpayload, hcrc⟩ := State.span_eq_append_iff.mp hrest
    rw [hpayload]
    exact hcrc
  · intro hcrc
    refine ⟨s.byteAt p 1, s.byteAt p 2, s.span (s.addMod p 3) n, ?_, ?_, ?_⟩
    · rw [Nat.add_comm, State.span_add, hcrc]
    · rw [hn, State.length_span]
    · rwa [State.length_span]

/-! ## NMEA sentences -/

/-- A start marker stands at `p`, and the first line stop after it, at offset `k` within the search
window, is a terminator. -/
structure State.LineAt (s : State) (p k : Nat) : Prop where
  start : isNmeaStart (s.byteAt p 0) = true
  one_le : 1 ≤ k
  lt : k < 96
  term : s.byteAt p k = nmeaTerm
  between : ∀ j, 1 ≤ j → j < k → isLineStop (s.byteAt p j) = false

theorem State.drop_one_span_succ (n : Nat) :
    (s.span p (n + 1)).drop 1 = s.span (s.addMod p 1) n := by
  rw [State.span_succ_left]
  rfl

/-- The layout of a sentence in the ring. -/
theorem State.span_eq_sentence_iff {n : Nat} {marker star h1 h2 term : Byte}
    {body tail : List Byte} :
    s.span p n = marker :: (body ++ star :: h1 :: h2 :: (tail ++ [term])) ↔
      n = body.length + 4 + tail.length + 1 ∧ s.byteAt p 0 = marker ∧
        s.span (s.addMod p 1) body.length = body ∧ s.byteAt p (body.length + 1) = star ∧
        s.byteAt p (body.length + 2) = h1 ∧ s.byteAt p (body.length + 3) = h2 ∧
        s.span (s.addMod p (body.length + 4)) tail.length = tail ∧
        s.byteAt p (body.length + 4 + tail.length) = term := by
  have hlen : body.length + (tail.length + 1 + 1 + 1 + 1) + 1 =
      body.length + 4 + tail.length + 1 := by omega
  simp [State.span_eq_cons_iff, State.span_eq_append_iff, State.addMod_addMod,
    State.readByte_addMod, hlen, Nat.add_comm 1, Nat.add_assoc]

/-- The bytes of a span within a line are no stops. -/
theorem State.LineAt.between_span {k i n : Nat} (hline : s.LineAt p k) (hi : 1 ≤ i)
    (hn : i + n ≤ k) : ∀ b ∈ s.span (s.addMod p i) n, isLineStop b = false := by
  intro b hb
  obtain ⟨j, hj, rfl⟩ := State.mem_span.mp hb
  rw [State.byteAt_addMod]
  exact hline.between _ (by omega) (by omega)

theorem State.ChecksumAt.isNmeaSentence {k star : Nat} {h1 h2 : BitVec 4} (hline : s.LineAt p k)
    (hroom : star + 2 < k) (hc : s.ChecksumAt p star h1 h2) :
    IsNmeaSentence (s.span p (k + 1)) := by
  obtain ⟨n, rfl⟩ : ∃ n, star = n + 1 := Nat.exists_eq_add_of_le' hc.one_le
  obtain ⟨m, rfl⟩ : ∃ m, k = n + 4 + m := Nat.exists_eq_add_of_le hroom
  have hmax := hline.lt
  have hxor := hc.xor_eq
  rw [State.drop_one_span_succ] at hxor
  refine ⟨s.byteAt p 0, s.span (s.addMod p 1) n, s.byteAt p (n + 2), s.byteAt p (n + 3),
    s.span (s.addMod p (n + 4)) m, h1, h2, hline.start, ?_, ?_, ?_, ?_, hc.high, hc.low, hxor⟩
  · simp only [State.span_eq_sentence_iff, State.length_span, true_and]
    exact ⟨hc.isStar, hline.term⟩
  · rw [State.length_span]
    omega
  · intro b hb
    obtain ⟨j, hj, rfl⟩ := State.mem_span.mp hb
    rw [State.byteAt_addMod]
    exact hc.first _ (by omega) (by omega)
  · simp only [List.forall_mem_append, List.forall_mem_cons]
    exact ⟨hline.between_span (Nat.le_refl 1) (by omega), hline.between _ (by omega) (by omega),
      hline.between _ (by omega) (by omega), hline.between_span (by omega) (by omega)⟩

theorem IsNmeaSentence.checksumAt {k : Nat} (h : IsNmeaSentence (s.span p (k + 1))) :
    ∃ star h1 h2, star + 2 < k ∧ s.ChecksumAt p star h1 h2 := by
  obtain ⟨marker, body, c1, c2, tail, h1, h2, _, hl, _, hbody, _, hhigh, hlow, hxor⟩ := h
  obtain ⟨hlen, _, hspan, hstar, hc1, hc2, _, _⟩ := State.span_eq_sentence_iff.mp hl
  refine ⟨body.length + 1, h1, h2, by omega, by omega, hstar, fun j hone hj => ?_, ?_, ?_, ?_⟩
  · obtain ⟨i, rfl⟩ : ∃ i, j = 1 + i := Nat.exists_eq_add_of_le hone
    rw [← State.byteAt_addMod]
    apply hbody
    rw [← hspan]
    exact State.mem_span.mpr ⟨i, by omega, rfl⟩
  · rwa [hc1]
  · rwa [hc2]
  · rwa [State.drop_one_span_succ, hspan]

/-- A line passes the check exactly when its bytes are a correct sentence. -/
theorem isNmeaSentence_span_iff {k : Nat} (hline : s.LineAt p k) :
    IsNmeaSentence (s.span p (k + 1)) ↔ s.nmeaValidate p (k + 1) = true := by
  have hone := hline.one_le
  rw [State.nmeaValidate_iff (by omega)]
  constructor
  · intro h
    obtain ⟨star, h1, h2, hroom, hc⟩ := h.checksumAt
    exact ⟨star, h1, h2, by omega, hc⟩
  · rintro ⟨star, h1, h2, hroom, hc⟩
    exact hc.isNmeaSentence hline (by omega)

/-! ## What a pass queues -/

/-- No message is empty, so the length 0 of a framing error spans none. -/
theorem not_isMessage_nil (protocol : Protocol) : ¬IsMessage protocol [] := by
  cases protocol with
  | unknown => exact id
  | rtcm3 =>
    rintro ⟨_, _, _, hl, _⟩
    cases hl
  | nmea =>
    rintro ⟨_, _, _, _, _, _, _, _, hl, _⟩
    cases hl

/-- The descriptor at its span is valid exactly when the span is a message of its protocol. -/
def ExactIn (s : State) (d : Descriptor) : Prop :=
  d.valid = true ↔ IsMessage d.protocol (s.span d.start d.length)

theorem framingError_exact (s : State) (protocol : Protocol) (pos : Nat) (reason : Reason) :
    ExactIn s (framingError protocol pos reason) :=
  iff_of_false Bool.false_ne_true (not_isMessage_nil protocol)

/-- What a detector emits is exact for its span. -/
theorem State.classify_emit_exact {pos rem adv : Nat} {d : Descriptor}
    (h : s.classify pos rem = .emit d adv) : ExactIn s d := by
  rcases s.classify_cases pos rem with ⟨hbyte, e⟩ | ⟨hbyte, e⟩ | e <;> rw [e] at h
  · rcases s.rtcm3Detect_cases pos rem with ⟨_, e⟩ | ⟨_, _, e⟩ | ⟨hmax, _, e⟩ <;>
      rw [e] at h <;> cases h
    · exact framingError_exact s .rtcm3 pos .invalidLength
    · exact (isRtcmFrame_span_iff hbyte rfl hmax).symm
  · rcases s.nmeaDetect_cases pos rem with ⟨k, hk, hterm, e⟩ | ⟨_, _, _, e⟩ | ⟨_, _, e⟩ | ⟨_, _, e⟩ <;>
      rw [e] at h <;> cases h
    · obtain ⟨hone, _, hmax, _, hbetween⟩ := State.firstLineStop_some hk
      rw [← State.byteAt_zero] at hbyte
      exact (isNmeaSentence_span_iff ⟨hbyte, hone, hmax, hterm, hbetween⟩).symm
    · exact framingError_exact s .nmea pos .tooLong
  · cases h

/-- From `s` on nothing was stored, and what is new in the queue is exact. -/
structure QueuesExactly (s t : State) : Prop where
  storage : SameStorage s t
  exact_of_mem : ∀ d ∈ t.queue, d ∈ s.queue ∨ ExactIn s d

theorem sameStorage_enqueue (s : State) (d : Descriptor) : SameStorage s (s.enqueue d) :=
  ⟨s.enqueue_config d, s.enqueue_ring d⟩

theorem SameStorage.trans {t u : State} (hst : SameStorage s t) (htu : SameStorage t u) :
    SameStorage s u := by
  obtain ⟨hconfig, hring⟩ := hst
  obtain ⟨hconfig', hring'⟩ := htu
  exact ⟨hconfig'.trans hconfig, hring'.trans hring⟩

theorem SameStorage.span {t : State} (h : SameStorage s t) (p n : Nat) :
    t.span p n = s.span p n := State.span_congr h.1 h.2 p n

theorem ExactIn.of_sameStorage {t : State} {d : Descriptor} (hst : SameStorage s t)
    (h : ExactIn t d) : ExactIn s d := by
  rwa [ExactIn, hst.span] at h

theorem queuesExactly_keptByTurn (s : State) : KeptByTurn (QueuesExactly s) where
  skip h _ _ := ⟨h.storage, h.exact_of_mem⟩
  emit {t d adv} h _ hv := by
    refine ⟨h.storage.trans (sameStorage_enqueue t d), fun x hx => ?_⟩
    rcases State.mem_enqueue hx with rfl | hold
    · exact .inr ((State.classify_emit_exact hv).of_sameStorage h.storage)
    · exact h.exact_of_mem x hold

/-- Settles O25: the pass stores nothing, and each verdict it queues is exact for its span. -/
theorem queuedValidityIsExact : Obligations.QueuedValidityIsExact := by
  unfold Obligations.QueuedValidityIsExact
  intro b s t h d hd
  cases h
  have hpass : QueuesExactly (s.ringPush b) (s.ringPush b).scanPass :=
    ((queuesExactly_keptByTurn _).scanPass ⟨⟨rfl, rfl⟩, fun _ => .inl⟩).1
  refine (hpass.exact_of_mem d hd).imp (fun hold => by rwa [State.ringPush_queue] at hold) ?_
  intro hexact
  rwa [ExactIn, ← hpass.storage.span] at hexact

end Sys2Proof.Machine
end

section
/-! SUPPORT. A message pushed byte by byte into an empty ring (`42_frame_scanner.md` R170;
`44_interface.md` R214): every pass before its last byte rests, the last one queues it. -/

namespace Sys2Proof.Machine
variable {s : State}

/-! ## A pass of at most one turn -/

/-- The loop stops at once at a position where too few bytes remain or the candidate is not
complete. -/
theorem scanLoop_of_resting {fuel pos rem : Nat}
    (h : rem < 6 ∨ s.classify pos rem = .incomplete) :
    scanLoop fuel s pos rem = (s, pos, rem) := by
  cases fuel with
  | zero => rfl
  | succ fuel =>
    rw [scanLoop_succ]
    split
    · rfl
    · rw [h.resolve_left ‹_›]

theorem State.Resting.scanPass_eq (h : s.Resting) : s.scanPass = s := by
  rw [State.scanPass, scanLoop_of_resting h]
  rfl

/-- A pass whose first verdict takes every live byte has one turn. -/
theorem State.scanPass_of_emit_all {d : Descriptor} (hsix : 6 ≤ s.available)
    (h : s.headVerdict = .emit d s.available) :
    s.scanPass = (s.enqueue d).advanceRead s.available := by
  have hloop : scanLoop s.available s s.readPos s.available =
      (s.enqueue d, s.addMod s.readPos s.available, 0) := by
    obtain ⟨n, hn⟩ : ∃ n, s.available = n + 1 := Nat.exists_eq_add_of_le' (by omega)
    conv_lhs => rw [hn, scanLoop_succ, ← hn, if_neg (Nat.not_lt.mpr hsix)]
    rw [State.headVerdict] at h
    rw [h]
    simp only [Nat.sub_self]
    exact scanLoop_of_resting (.inl (by omega))
  rw [State.scanPass, hloop, State.advanceRead, State.addMod_congr (s.enqueue_config d)]
  simp [State.commit]

/-! ## Messages that a pass frames at their last byte -/

/-- A message of the protocol: at whatever index it stands, a pass waits for all its bytes, and
frames it as valid once they are there. -/
structure FramedAtLastByte (protocol : Protocol) (l : List Byte) : Prop where
  six_le : 6 ≤ l.length
  le_max : l.length ≤ 1029
  waits : ∀ (s : State) (p j : Nat), 6 ≤ j → j < l.length → s.span p j = l.take j →
    s.classify p j = .incomplete
  frames : ∀ (s : State) (p : Nat), s.span p l.length = l →
    s.classify p l.length = .emit ⟨protocol, p, l.length, true, .none⟩ l.length

/-- A run of PUSHes that fits the ring stands there from the write cursor on. -/
theorem State.span_pushAll {bytes : List Byte} (hfits : bytes.length ≤ s.config.N) :
    (s.pushAll bytes).span s.writePos bytes.length = bytes := by
  apply List.ext_getElem
  · exact State.length_span _ _ _
  · intro k hk hk'
    rw [State.getElem_span, State.byteAt, State.addMod_congr (s.pushAll_config bytes)]
    exact State.readByte_pushAll hfits k hk'

/-- While a message comes in, its `count` bytes so far are the live ones, from the write cursor of
`s` on, and nothing is queued. -/
structure Waiting (s t : State) (count : Nat) : Prop where
  readPos : t.readPos = s.writePos
  available : t.available = count
  queue : t.queue = []
  responses : t.responses = s.responses ++ List.replicate count (.msgReady false)

section Delivery
variable {protocol : Protocol} {l : List Byte}

theorem State.pushAll_take_succ {n : Nat} (s : State) (hn : n < l.length) :
    s.pushAll (l.take (n + 1)) = (s.pushAll (l.take n)).push l[n] := by
  rw [← List.take_append_getElem hn, State.pushAll_append]
  rfl

/-- What the pass finds after the next byte. -/
theorem Waiting.ringPush {n : Nat} (h : Waiting s (s.pushAll (l.take n)) n) (hn : n < l.length)
    (hfits : l.length ≤ s.config.N) :
    let t := (s.pushAll (l.take n)).ringPush l[n]
    t.readPos = s.writePos ∧ t.available = n + 1 ∧ t.span s.writePos (n + 1) = l.take (n + 1) ∧
      t.queue = [] := by
  intro t
  have hroom : (s.pushAll (l.take n)).available ≠ (s.pushAll (l.take n)).config.N := by
    rw [h.available, State.pushAll_config]
    omega
  have hlength : (l.take (n + 1)).length = n + 1 := List.length_take_of_le hn
  obtain ⟨hread, havailable⟩ := State.ringPush_of_not_full l[n] hroom
  refine ⟨hread.trans h.readPos, by rw [havailable, h.available], ?_,
    (State.ringPush_queue _ _).trans h.queue⟩
  calc t.span s.writePos (n + 1)
      = (s.pushAll (l.take (n + 1))).span s.writePos (n + 1) := by
        rw [State.pushAll_take_succ s hn]
        exact State.span_congr (by simp [t]) (by simp [t]) _ _
    _ = l.take (n + 1) := by
        have hspan := State.span_pushAll (s := s) (hlength.trans_le (Nat.le_trans hn hfits))
        rwa [hlength] at hspan

/-- The response to a PUSH whose pass changes nothing. -/
theorem State.push_of_resting {b : Byte} (h : (s.ringPush b).Resting) :
    s.push b = (s.ringPush b).respondReady := by
  rw [State.push, h.scanPass_eq]

/-- Every PUSH before the last leaves the block waiting. -/
theorem FramedAtLastByte.waiting (h : FramedAtLastByte protocol l) (hring : RingOk s)
    (hlive : s.available = 0) (hqueue : s.queue = []) (hfits : l.length ≤ s.config.N) {n : Nat}
    (hn : n < l.length) : Waiting s (s.pushAll (l.take n)) n := by
  induction n with
  | zero =>
    obtain ⟨_, hread, _, hwrite⟩ := hring
    rw [hlive, State.addMod_zero hread] at hwrite
    exact ⟨hwrite.symm, hlive, hqueue, (List.append_nil _).symm⟩
  | succ n ih =>
    have hwait := ih (by omega)
    obtain ⟨hread, havailable, hspan, hempty⟩ := hwait.ringPush (by omega) hfits
    have hrest : ((s.pushAll (l.take n)).ringPush l[n]).Resting := by
      by_cases hfew : n + 1 < 6
      · exact .inl (by omega)
      · refine .inr ?_
        rw [State.headVerdict, hread, havailable]
        exact h.waits _ _ _ (by omega) hn hspan
    rw [State.pushAll_take_succ s (by omega), State.push_of_resting hrest]
    refine ⟨hread, havailable, hempty, ?_⟩
    rw [State.respondReady, State.respond_responses, State.ringPush_responses, hwait.responses,
      State.msgReady, hempty, List.replicate_succ', List.append_assoc]
    rfl

/-- The last PUSH queues the message and leaves no byte live. -/
theorem FramedAtLastByte.delivered (h : FramedAtLastByte protocol l) (hring : RingOk s)
    (hlive : s.available = 0) (hqueue : s.queue = []) (hfits : l.length ≤ s.config.N) :
    (s.pushAll l).available = 0 ∧
      (s.pushAll l).queue = [⟨protocol, s.writePos, l.length, true, .none⟩] ∧
      (s.pushAll l).responses = s.responses ++
        (List.replicate (l.length - 1) (.msgReady false) ++ [.msgReady true]) := by
  have hsix := h.six_le
  obtain ⟨n, hn⟩ : ∃ n, l.length = n + 1 := Nat.exists_eq_add_of_le' (by omega)
  have hlast : n < l.length := by omega
  have hall : l.take (n + 1) = l := List.take_of_length_le hn.le
  have hwait := h.waiting hring hlive hqueue hfits hlast
  obtain ⟨hread, havailable, hspan, hempty⟩ := hwait.ringPush hlast hfits
  have hpush := State.pushAll_take_succ s hlast
  rw [hall] at hpush hspan
  set t := (s.pushAll (l.take n)).ringPush l[n] with ht
  rw [← hn] at havailable hspan
  have hverdict : t.headVerdict =
      .emit ⟨protocol, s.writePos, l.length, true, .none⟩ t.available := by
    rw [State.headVerdict, hread, havailable]
    exact h.frames t _ hspan
  have hpass := State.scanPass_of_emit_all (by omega) hverdict
  have hqueued : t.scanPass.queue = [⟨protocol, s.writePos, l.length, true, .none⟩] := by
    rw [hpass]
    change (t.enqueue _).queue = _
    rw [State.enqueue_queue, hempty]
    simp
  refine ⟨?_, ?_, ?_⟩
  · rw [hpush, State.push_available, ← ht, hpass]
    exact (congrArg (· - t.available) (t.enqueue_available _)).trans (Nat.sub_self _)
  · rw [hpush, State.push_queue, ← ht, hqueued]
  · rw [hpush, State.push_responses, ← ht, State.msgReady, hqueued, hwait.responses,
      List.append_assoc, hn]
    rfl

end Delivery
end Sys2Proof.Machine
end

section
/-! SUPPORT. The two kinds of message, pushed into an empty ring and read back with NEXT_MESSAGE
(`42_frame_scanner.md` R152, R162; `44_interface.md` R214; `30_encoding.md` R76). -/

namespace Sys2Proof.Machine
variable {s : State} {p : Nat} {l : List Byte}

/-! ## The message comes back -/

/-- The header word of a valid message. -/
theorem headerWord_of_valid (protocol : Protocol) {data : List Byte} (h : data.length ≤ 1029) :
    headerWord ⟨protocol, data.length, true, .none, data⟩ =
      BitVec.ofNat 24 ((protocolCode protocol).toNat * 0x400000 + 0x200000 + data.length) := by
  apply BitVec.eq_of_toNat_eq
  rw [toNat_headerWord h, BitVec.toNat_ofNat, Nat.mod_eq_of_lt]
  · simp [reasonCode]
  · have hcode := (protocolCode protocol).isLt
    omega

/-- What the two obligations say of a message, for any protocol. -/
theorem FramedAtLastByte.pushb_nextMessage {protocol : Protocol}
    (h : FramedAtLastByte protocol l) (hring : RingOk s) (hlive : s.available = 0)
    (hqueue : s.queue = []) (hfits : l.length ≤ s.config.N) :
    ∃ t, exec (.pushb l) s = .next t ∧ t.available = 0 ∧
      t.queue = [⟨protocol, s.writePos, l.length, true, .none⟩] ∧
      t.responses = s.responses ++
        (List.replicate (l.length - 1) (.msgReady false) ++ [.msgReady true]) ∧
      ∃ u, exec (.nextMessage 0) t = .next u ∧ u.queue = [] ∧
        u.responses = t.responses ++
          [.message (BitVec.ofNat 24
            ((protocolCode protocol).toNat * 0x400000 + 0x200000 + l.length)) l] := by
  obtain ⟨havailable, hqueued, hresponses⟩ := h.delivered hring hlive hqueue hfits
  refine ⟨s.pushAll l, rfl, havailable, hqueued, hresponses, (s.pushAll l).nextMessage, rfl, ?_, ?_⟩
  · rw [State.nextMessage_eq, State.respond_queue, State.setQueue_queue, hqueued, List.tail_cons]
  · have hmessage : (s.pushAll l).dequeue.1 = ⟨protocol, l.length, true, .none, l⟩ := by
      rw [State.dequeue, hqueued]
      simp only [State.materialise, State.span_pushAll hfits]
    rw [State.nextMessage_responses, hmessage, headerWord_of_valid protocol h.le_max]

/-! ## RTCM3 frames -/

/-- A frame whose header is there is judged by its length. -/
theorem State.classify_rtcm {i : Nat} {b1 b2 : Byte} {rest : List Byte}
    (h : s.span p (i + 3) = 0xD3#8 :: b1 :: b2 :: rest) :
    s.readByte p = rtcmPreamble ∧ s.byteAt p 1 = b1 ∧ s.byteAt p 2 = b2 ∧
      ∀ rem, s.classify p rem = s.rtcm3Detect p rem := by
  rw [State.span_header] at h
  simp only [List.cons.injEq] at h
  obtain ⟨hbyte, hb1, hb2, _⟩ := h
  exact ⟨hbyte, hb1, hb2, fun _ => if_pos hbyte⟩

theorem IsRtcmFrame.framedAtLastByte (h : IsRtcmFrame l) : FramedAtLastByte .rtcm3 l := by
  have hframe := h
  obtain ⟨b1, b2, payload, hl, hlen, hmax⟩ := h
  rw [← detectionLength_eq] at hlen
  have hlength : l.length = payload.length + 6 := by simp [hl, crcBytes]
  refine ⟨by omega, by omega, fun s p j hsix hj hspan => ?_, fun s p hspan => ?_⟩
  · obtain ⟨i, rfl⟩ : ∃ i, j = i + 3 := Nat.exists_eq_add_of_le' (by omega)
    rw [hl, List.take_succ_cons, List.take_succ_cons, List.take_succ_cons] at hspan
    obtain ⟨_, hb1, hb2, hclassify⟩ := State.classify_rtcm hspan
    rw [hclassify]
    have hcases := s.rtcm3Detect_cases p (i + 3)
    simp only [hb1, hb2, hlen] at hcases
    rcases hcases with ⟨hlong, _⟩ | ⟨_, _, e⟩ | ⟨_, hthere, _⟩
    · omega
    · exact e
    · omega
  · rw [hlength] at hspan ⊢
    obtain ⟨hbyte, hb1, hb2, hclassify⟩ := State.classify_rtcm (hspan.trans hl)
    rw [← hspan, isRtcmFrame_span_iff hbyte (by rw [hb1, hb2, hlen]) hmax] at hframe
    rw [hclassify]
    have hcases := s.rtcm3Detect_cases p (payload.length + 6)
    simp only [hb1, hb2, hlen] at hcases
    rcases hcases with ⟨hlong, _⟩ | ⟨_, hshort, _⟩ | ⟨_, _, e⟩
    · omega
    · omega
    · rw [e, hframe]
      rfl

/-- Settles O28: a correct frame is framed at its last byte. -/
theorem rtcmFrameIsDelivered : Obligations.RtcmFrameIsDelivered := by
  unfold Obligations.RtcmFrameIsDelivered
  exact fun _ _ hring hlive hqueue hframe hfits =>
    hframe.framedAtLastByte.pushb_nextMessage hring hlive hqueue hfits

/-! ## NMEA sentences -/

/-- A sentence is a line: a start marker, bytes that end no line, a terminator. -/
theorem IsNmeaSentence.line (h : IsNmeaSentence l) :
    ∃ marker inner, isNmeaStart marker = true ∧ l = marker :: (inner ++ [nmeaTerm]) ∧
      l.length ≤ 96 ∧ ∀ b ∈ inner, isLineStop b = false := by
  obtain ⟨marker, body, h1, h2, tail, _, _, hmarker, hl, hmax, _, hstop, _⟩ := h
  refine ⟨marker, body ++ 0x2A#8 :: h1 :: h2 :: tail, hmarker, ?_, hmax, ?_⟩
  · simp [hl]
  · simp only [List.forall_mem_append, List.forall_mem_cons] at hstop ⊢
    obtain ⟨hbody, hdigits⟩ := hstop
    exact ⟨hbody, rfl, hdigits⟩

/-- The bytes of a line after its marker, from a span that begins it. -/
theorem State.isLineStop_of_span {n k : Nat} {inner : List Byte}
    (hspan : s.span (s.addMod p 1) n = inner) (hinner : ∀ b ∈ inner, isLineStop b = false)
    (hone : 1 ≤ k) (hk : k < n + 1) : isLineStop (s.byteAt p k) = false := by
  obtain ⟨j, rfl⟩ : ∃ j, k = 1 + j := Nat.exists_eq_add_of_le hone
  apply hinner
  rw [← hspan, ← State.byteAt_addMod]
  exact State.mem_span.mpr ⟨j, by omega, rfl⟩

theorem State.classify_nmea (h : isNmeaStart (s.byteAt p 0) = true) (rem : Nat) :
    s.classify p rem = s.nmeaDetect p rem := by
  rw [State.byteAt_zero] at h
  have hpreamble : s.readByte p ≠ rtcmPreamble := by
    intro hbyte
    rw [hbyte] at h
    exact absurd h (by decide)
  rw [State.classify, if_neg hpreamble, if_pos h]

/-- Without a line stop among the bytes there, the search goes on. -/
theorem State.nmeaDetect_of_no_stop {rem : Nat} (hmax : rem < 96)
    (h : ∀ k, 1 ≤ k → k < rem → isLineStop (s.byteAt p k) = false) :
    s.nmeaDetect p rem = .incomplete := by
  have hnone : ∀ k, s.firstLineStop p rem ≠ some k := by
    intro k hk
    obtain ⟨hone, hrem, _, hstop, _⟩ := State.firstLineStop_some hk
    exact Bool.false_ne_true ((h k hone hrem).symm.trans hstop)
  rcases s.nmeaDetect_cases p rem with ⟨k, hk, _⟩ | ⟨k, hk, _⟩ | ⟨_, hlong, _⟩ | ⟨_, _, e⟩
  · exact absurd hk (hnone k)
  · exact absurd hk (hnone k)
  · omega
  · exact e

theorem State.LineAt.firstLineStop {k : Nat} (h : s.LineAt p k) :
    s.firstLineStop p (k + 1) = some k := by
  have hstop : isLineStop (s.byteAt p k) = true := by rw [h.term]; rfl
  have hmax := h.lt
  cases hfirst : s.firstLineStop p (k + 1) with
  | none =>
    have hno := State.firstLineStop_none hfirst h.one_le (by omega) hmax
    exact absurd (hno.symm.trans hstop) Bool.false_ne_true
  | some j =>
    obtain ⟨hone, hj, _, hjstop, _⟩ := State.firstLineStop_some hfirst
    rcases Nat.lt_or_eq_of_le (Nat.le_of_lt_succ hj) with hlt | rfl
    · exact absurd ((h.between j hone hlt).symm.trans hjstop) Bool.false_ne_true
    · rfl

/-- A line is framed at its terminator. -/
theorem State.LineAt.nmeaDetect {k : Nat} (h : s.LineAt p k) :
    s.nmeaDetect p (k + 1) =
      .emit (framed .nmea p (k + 1) (s.nmeaValidate p (k + 1)) .checksumFail) (k + 1) := by
  simp only [State.nmeaDetect, h.firstLineStop, h.term, if_true]

theorem IsNmeaSentence.framedAtLastByte (h : IsNmeaSentence l) (hsix : 6 ≤ l.length) :
    FramedAtLastByte .nmea l := by
  obtain ⟨marker, inner, hmarker, hl, hmax, hinner⟩ := h.line
  have hlength : l.length = inner.length + 1 + 1 := by simp [hl]
  refine ⟨hsix, by omega, fun s p j hfew hj hspan => ?_, fun s p hspan => ?_⟩
  · obtain ⟨i, rfl⟩ : ∃ i, j = i + 1 := Nat.exists_eq_add_of_le' (by omega)
    rw [hl, List.take_succ_cons, List.take_append_of_le_length (by omega), State.span_succ_left,
      List.cons.injEq] at hspan
    obtain ⟨hfirst, hrest⟩ := hspan
    rw [State.classify_nmea (by rwa [hfirst])]
    exact State.nmeaDetect_of_no_stop (by omega) fun k =>
      State.isLineStop_of_span hrest fun b hb => hinner b (List.mem_of_mem_take hb)
  · rw [hlength] at hspan ⊢
    have hlayout := hspan.trans hl
    rw [State.span_succ_left, List.cons.injEq, State.span_succ, State.byteAt_addMod] at hlayout
    obtain ⟨hfirst, hrest⟩ := hlayout
    obtain ⟨hspanInner, hterm⟩ := List.append_inj' hrest rfl
    have hline : s.LineAt p (inner.length + 1) :=
      ⟨by rwa [hfirst], by omega, by omega, by simpa [Nat.add_comm] using hterm,
        fun k => State.isLineStop_of_span hspanInner hinner⟩
    rw [← hspan, isNmeaSentence_span_iff hline] at h
    rw [State.classify_nmea hline.start, hline.nmeaDetect, h]
    rfl

/-- Settles O29: a correct sentence of at least 6 bytes is framed at its terminator. -/
theorem nmeaSentenceIsDelivered : Obligations.NmeaSentenceIsDelivered := by
  unfold Obligations.NmeaSentenceIsDelivered
  exact fun _ _ hring hlive hqueue hsentence hsix hfits =>
    (hsentence.framedAtLastByte hsix).pushb_nextMessage hring hlive hqueue hfits

end Sys2Proof.Machine
end

section
/-! SUPPORT. What the two detectors answer, read from the bytes at the position
(`42_frame_scanner.md` R152, R162), and what every position emits (R150, R173). -/

namespace Sys2Proof.Machine

/-- The verdict on a whole frame, with its descriptor's fields written out for both results of the
check. -/
theorem emit_framed (protocol : Protocol) (pos length adv : Nat) (ok : Bool) (failure : Reason) :
    Verdict.emit (framed protocol pos length ok failure) adv =
      if ok then .emit ⟨protocol, pos, length, true, .none⟩ adv
      else .emit ⟨protocol, pos, length, false, failure⟩ adv := by
  cases ok <;> rfl

/-! ## RTCM3_DETECT (R152) -/

/-- Settles O49: the three verdicts of the detector, the length read as a number. -/
theorem rtcm3DetectFramesByLength : Obligations.Rtcm3DetectFramesByLength := by
  unfold Obligations.Rtcm3DetectFramesByLength
  intro pos rem payload s hpayload
  have hexec : exec (.rtcm3Detect pos rem) s =
      .next { s with returned := .verdict (s.rtcm3Detect pos rem) } := rfl
  have hcases := s.rtcm3Detect_cases pos rem
  simp only [detectionLength_eq, ← hpayload] at hcases
  rw [hexec]
  rcases hcases with ⟨hmax, e⟩ | ⟨hmax, hshort, e⟩ | ⟨hmax, hfits, e⟩ <;> rw [e]
  · exact ⟨fun _ => rfl, fun _ => by omega, fun _ => by omega⟩
  · exact ⟨fun _ => by omega, fun _ _ => rfl, fun _ _ => by omega⟩
  · exact ⟨fun _ => by omega, fun _ _ => by omega, fun _ _ => by rw [emit_framed]⟩

/-! ## NMEA_DETECT (R162) -/

/-- The search along a line finds the first stop in the window. -/
theorem State.firstLineStop_eq_some {s : State} {pos rem k : Nat} (hone : 1 ≤ k)
    (hk : k < min rem 96) (hstop : isLineStop (s.byteAt pos k) = true)
    (hfirst : ∀ j, 1 ≤ j → j < k → isLineStop (s.byteAt pos j) = false) :
    s.firstLineStop pos rem = some k := by
  rw [State.firstLineStop, List.find?_range'_eq_some]
  refine ⟨hstop, List.mem_range'_1.mpr (by simp only [nmeaMax]; omega), fun j h₁ hj => ?_⟩
  simp [hfirst j h₁ hj]

theorem State.firstLineStop_eq_none {s : State} {pos rem : Nat}
    (h : ∀ k, 1 ≤ k → k < min rem 96 → isLineStop (s.byteAt pos k) = false) :
    s.firstLineStop pos rem = none := by
  rw [State.firstLineStop, List.find?_range'_eq_none]
  exact fun k h₁ hk => by simp [h k h₁ (by simp only [nmeaMax] at hk; omega)]

theorem ne_nmeaTerm_of_isNmeaStart {b : Byte} (h : isNmeaStart b = true) : b ≠ nmeaTerm := by
  rintro rfl
  cases h

/-- A terminator that is the first stop frames the line up to it. -/
theorem State.nmeaDetect_of_term {s : State} {pos rem k : Nat}
    (hk : s.firstLineStop pos rem = some k) (hterm : s.byteAt pos k = nmeaTerm) :
    s.nmeaDetect pos rem =
      .emit (framed .nmea pos (k + 1) (s.nmeaValidate pos (k + 1)) .checksumFail) (k + 1) := by
  simp only [State.nmeaDetect, hk, hterm, if_true]

/-- A start marker that is the first stop abandons the candidate (R164). -/
theorem State.nmeaDetect_of_marker {s : State} {pos rem k : Nat}
    (hk : s.firstLineStop pos rem = some k) (hmarker : isNmeaStart (s.byteAt pos k) = true) :
    s.nmeaDetect pos rem = .skip := by
  simp only [State.nmeaDetect, hk, if_neg (ne_nmeaTerm_of_isNmeaStart hmarker)]

/-- With no stop the window decides (R166). -/
theorem State.nmeaDetect_of_none {s : State} {pos rem : Nat}
    (h : s.firstLineStop pos rem = none) :
    s.nmeaDetect pos rem =
      if 96 ≤ rem then .emit (framingError .nmea pos .tooLong) 1 else .incomplete := by
  simp only [State.nmeaDetect, h, nmeaMax]

/-- Settles O50: the first stop along the line is a terminator, a start marker, or missing. -/
theorem nmeaDetectFramesByLine : Obligations.NmeaDetectFramesByLine := by
  unfold Obligations.NmeaDetectFramesByLine
  intro pos rem s
  have hexec : exec (.nmeaDetect pos rem) s =
      .next { s with returned := .verdict (s.nmeaDetect pos rem) } := rfl
  rw [hexec]
  refine ⟨fun k hone hk hfirst => ⟨fun hterm => ?_, fun hmarker => ?_⟩, fun hnone => ?_⟩
  · have hstop : isLineStop (s.byteAt pos k) = true := by rw [hterm]; rfl
    rw [State.nmeaDetect_of_term (State.firstLineStop_eq_some hone hk hstop hfirst) hterm,
      emit_framed]
  · have hstop : isLineStop (s.byteAt pos k) = true := by simp [isLineStop, hmarker]
    rw [State.nmeaDetect_of_marker (State.firstLineStop_eq_some hone hk hstop hfirst) hmarker]
  · rw [State.nmeaDetect_of_none (State.firstLineStop_eq_none hnone)]
    exact ⟨fun hlong => by rw [if_pos hlong]; rfl,
      fun hshort => by rw [if_neg (Nat.not_le.mpr hshort)]⟩

/-! ## Every position -/

/-- Settles O51: each detector's emissions are well-formed, and the other positions emit nothing. -/
theorem emittedDescriptorsAreWellFormed : Obligations.EmittedDescriptorsAreWellFormed := by
  unfold Obligations.EmittedDescriptorsAreWellFormed
  exact fun _ _ _ _ _ hrem => State.classify_emit hrem

end Sys2Proof.Machine
end

section
/-! SUPPORT. Where a pass ends and after how many turns (`42_frame_scanner.md` R170, R171, R173,
R177). -/

namespace Sys2Proof.Machine

/-! ## What a pass commits -/

/-- Settles O54: the loop ends at rest, and its three ways to rest are the three clauses. -/
theorem everyPassComesToRest : Obligations.EveryPassComesToRest := by
  unfold Obligations.EveryPassComesToRest
  exact fun s => ⟨s.scanPass, rfl, s.scanPass_parked⟩

/-- Nothing has been consumed yet. -/
theorem AccountsFor.refl {s : State} (hread : s.readPos < s.config.N) :
    AccountsFor s s.available s :=
  ⟨rfl, Nat.le_refl _, by rw [Nat.sub_self, State.addMod_zero hread]⟩

/-- Settles O52: each turn accounts for the bytes it consumes; too few live bytes are at rest. -/
theorem scanPassCommitsWhatItConsumed : Obligations.ScanPassCommitsWhatItConsumed := by
  unfold Obligations.ScanPassCommitsWhatItConsumed
  intro s hread
  have hpass := (AccountsFor.refl hread).scanPass
  refine ⟨s.scanPass, rfl, s.scanPass_eq, hpass.available_le, hpass.readPos, fun hfew => ?_⟩
  exact State.Resting.scanPass_eq (.inl hfew)

/-! ## How many turns it takes -/

/-- Every turn takes a byte, and with 5 left the loop stops, so any two bounds from `rem - 5` on
agree. -/
theorem scanLoop_fuel_irrelevant {fuel fuel' : Nat} (s : State) (pos : Nat) {rem : Nat}
    (h : rem - 5 ≤ fuel) (h' : rem - 5 ≤ fuel') :
    scanLoop fuel s pos rem = scanLoop fuel' s pos rem := by
  induction fuel generalizing fuel' s pos rem with
  | zero =>
    have hfew : rem < 6 := by omega
    rw [scanLoop_of_resting (.inl hfew), scanLoop_of_resting (.inl hfew)]
  | succ fuel ih =>
    by_cases hfew : rem < 6
    · rw [scanLoop_of_resting (.inl hfew), scanLoop_of_resting (.inl hfew)]
    · obtain ⟨n, rfl⟩ : ∃ n, fuel' = n + 1 := Nat.exists_eq_add_of_le' (by omega)
      rw [scanLoop_succ, scanLoop_succ, if_neg hfew, if_neg hfew]
      cases hv : s.classify pos rem with
      | incomplete => rfl
      | skip => exact ih s _ (by omega) (by omega)
      | emit d adv =>
        obtain ⟨_, _, hadv, _⟩ := State.classify_emit (by omega) hv
        exact ih (s.enqueue d) _ (by omega) (by omega)

/-- Settles O55: `rem - 5` is itself one of the bounds that agree. -/
theorem passEndsWithinItsBound : Obligations.PassEndsWithinItsBound := by
  unfold Obligations.PassEndsWithinItsBound
  exact fun _ s pos _ hfuel => scanLoop_fuel_irrelevant s pos hfuel (Nat.le_refl _)

end Sys2Proof.Machine
end

section
/-! SUPPORT. The induction along a pass together with the descriptors it emits
(`42_frame_scanner.md` R174, R178): their order, and the queue they leave. -/

namespace Sys2Proof.Machine

/-! ## The induction -/

/-- The emissions over a position depend on the storage and the parameters alone. -/
theorem scanEmissions_congr {s t : State} (h : SameStorage s t) (fuel pos rem off : Nat) :
    scanEmissions fuel t pos rem off = scanEmissions fuel s pos rem off := by
  induction fuel generalizing pos rem off with
  | zero => rfl
  | succ fuel ih =>
    simp only [scanEmissions, State.classify_congr h.1 h.2, State.addMod_congr h.1, ih]

/-- One turn of the scan loop, seen through its emissions. -/
theorem scanEmissions_succ (fuel : Nat) (s : State) (pos rem off : Nat) :
    scanEmissions (fuel + 1) s pos rem off =
      if rem < 6 then []
      else
        match s.classify pos rem with
        | .incomplete => []
        | .skip => scanEmissions fuel s (s.addMod pos 1) (rem - 1) (off + 1)
        | .emit d adv =>
          (off, d) :: scanEmissions fuel s (s.addMod pos adv) (rem - adv) (off + adv) := rfl

/-- A turn of a scan loop over `total` live bytes keeps the predicate of the state and the
descriptors emitted so far, each with its offset. -/
structure KeptWithEmissions (total : Nat) (P : State → List (Nat × Descriptor) → Prop) : Prop where
  skip : ∀ {s : State} {ds : List (Nat × Descriptor)}, P s ds → 6 ≤ s.available →
    s.headVerdict = .skip → P (s.advanceRead 1) ds
  emit : ∀ {s : State} {ds : List (Nat × Descriptor)} {d : Descriptor} {adv : Nat}, P s ds →
    6 ≤ s.available → s.headVerdict = .emit d adv →
    P ((s.enqueue d).advanceRead adv) (ds ++ [(total - s.available, d)])

variable {P : State → List (Nat × Descriptor) → Prop}

/-- `off` is what a pass over `total` bytes has consumed when `rem` remain. -/
theorem KeptWithEmissions.scanLoop {total : Nat} (keep : KeptWithEmissions total P) {fuel : Nat}
    {s : State} {pos rem off : Nat} {ds : List (Nat × Descriptor)} (htotal : total = off + rem)
    (h : P (s.commit pos rem) ds) :
    ∃ t p r, scanLoop fuel s pos rem = (t, p, r) ∧
      P (t.commit p r) (ds ++ scanEmissions fuel s pos rem off) := by
  induction fuel generalizing s pos rem off ds with
  | zero => exact ⟨s, pos, rem, rfl, by rwa [scanEmissions, List.append_nil]⟩
  | succ fuel ih =>
    rw [scanLoop_succ, scanEmissions_succ]
    by_cases hfew : rem < 6
    · exact ⟨s, pos, rem, if_pos hfew, by rwa [if_pos hfew, List.append_nil]⟩
    · have hsix : 6 ≤ (s.commit pos rem).available := Nat.not_lt.mp hfew
      have hhead := s.classify_commit pos rem pos rem
      rw [if_neg hfew, if_neg hfew]
      cases hv : s.classify pos rem with
      | incomplete => exact ⟨s, pos, rem, rfl, by rwa [List.append_nil]⟩
      | skip =>
        have hturn := keep.skip h hsix (hhead.trans hv)
        rw [State.advanceRead_commit] at hturn
        exact ih (by omega) hturn
      | emit d adv =>
        obtain ⟨_, _, hadv, _⟩ := State.classify_emit (by omega) hv
        have hturn := keep.emit h hsix (hhead.trans hv)
        have hoff : total - (s.commit pos rem).available = off :=
          htotal ▸ Nat.add_sub_cancel off rem
        rw [hoff, State.enqueue_commit, State.advanceRead_commit,
          State.addMod_congr (s.enqueue_config d)] at hturn
        obtain ⟨t, p, r, e, hkept⟩ := ih (off := off + adv) (by omega) hturn
        rw [List.append_assoc, scanEmissions_congr (sameStorage_enqueue s d)] at hkept
        exact ⟨t, p, r, e, hkept⟩

/-- SCAN_PASS, with all its emissions, keeps what each turn keeps. -/
theorem KeptWithEmissions.scanPass {s : State} (keep : KeptWithEmissions s.available P)
    (h : P s []) : P s.scanPass s.passEmissions := by
  obtain ⟨t, p, r, e, hkept⟩ :=
    keep.scanLoop (fuel := s.available) (pos := s.readPos) (Nat.zero_add _).symm h
  simp only [State.scanPass, e]
  exact hkept

/-! ## The order of the emissions (R174) -/

/-- Where the span of an emission ends; a framing error, of length 0, takes its first byte. -/
def emissionEnd (x : Nat × Descriptor) : Nat := x.1 + max x.2.length 1

/-- What a pass from `s` has emitted when it stands at `t`: in stream order without overlap, each
starting at its offset, all within the bytes consumed. -/
structure EmittedInOrder (s t : State) (ds : List (Nat × Descriptor)) : Prop where
  accounts : AccountsFor s s.available t
  ordered : ds.Pairwise fun x y => emissionEnd x ≤ y.1
  start_eq : ∀ x ∈ ds, x.2.start = s.addMod s.readPos x.1
  end_le : ∀ x ∈ ds, emissionEnd x ≤ s.available - t.available

/-- A new emission starts where the bytes consumed end. -/
theorem emittedInOrder_kept (s : State) : KeptWithEmissions s.available (EmittedInOrder s) where
  skip {t ds} h hsix hv :=
    ⟨(AccountsFor.keptByTurn s _).skip h.accounts hsix hv, h.ordered, h.start_eq,
      fun x hx => (h.end_le x hx).trans (Nat.sub_le_sub_left (Nat.sub_le _ 1) _)⟩
  emit {t ds d adv} h hsix hv := by
    obtain ⟨_, hstart, _, hadv, hmax⟩ := State.headVerdict_emit hsix hv
    have hlive := h.accounts.available_le
    have hleft : ((t.enqueue d).advanceRead adv).available = t.available - adv :=
      congrArg (· - adv) (t.enqueue_available d)
    refine ⟨(AccountsFor.keptByTurn s _).emit h.accounts hsix hv, ?_, ?_, ?_⟩
    · refine List.pairwise_append.mpr ⟨h.ordered, List.pairwise_singleton _ _, fun x hx y hy => ?_⟩
      rw [List.mem_singleton.mp hy]
      exact h.end_le x hx
    · simp only [List.forall_mem_append, List.forall_mem_singleton]
      exact ⟨h.start_eq, hstart.trans h.accounts.readPos⟩
    · simp only [List.forall_mem_append, List.forall_mem_singleton, hleft, emissionEnd, ← hmax]
      exact ⟨fun x hx => (h.end_le x hx).trans (by omega), by omega⟩

/-- Settles O53: a pass keeps its emissions in order, starting with none. -/
theorem emissionsComeInStreamOrder : Obligations.EmissionsComeInStreamOrder := by
  unfold Obligations.EmissionsComeInStreamOrder
  intro s hread
  have hnone : EmittedInOrder s s [] :=
    ⟨AccountsFor.refl hread, .nil, List.forall_mem_nil _, List.forall_mem_nil _⟩
  have hall := (emittedInOrder_kept s).scanPass hnone
  exact ⟨hall.ordered, fun x hx => ⟨hall.start_eq x hx, hall.end_le x hx⟩⟩

/-! ## The queue after a pass (R178, R190, R246) -/

/-- Keeping the last `n` of a list before appending to it changes nothing of the last `n`. -/
theorem rtake_append_rtake {α : Type} (l m : List α) (n : Nat) :
    (l.rtake n ++ m).rtake n = (l ++ m).rtake n := by
  simp only [List.rtake_eq_reverse_take_reverse, List.reverse_append, List.reverse_reverse,
    List.take_append, List.take_take]
  congr 3
  omega

/-- Q_ENQUEUE keeps the newest `Q` descriptors. -/
theorem State.enqueue_queue_eq_rtake {s : State} (d : Descriptor)
    (h : s.queue.length ≤ s.config.Q) :
    (s.enqueue d).queue = (s.queue ++ [d]).rtake s.config.Q := by
  obtain ⟨n, hn⟩ : ∃ n, s.config.Q = n + 1 := Nat.exists_eq_add_of_le' s.config.Q_pos
  rw [State.enqueue_queue, hn, List.rtake_concat_succ, List.rtake]
  by_cases hfull : s.queue.length = n + 1
  · rw [if_pos hfull, hfull, Nat.add_sub_cancel_left, List.drop_one]
  · rw [if_neg hfull, Nat.sub_eq_zero_of_le (by omega), List.drop_zero]

/-- The queue holds the newest `Q` of what `s` had queued and the descriptors emitted since. -/
structure QueuesNewest (s t : State) (ds : List (Nat × Descriptor)) : Prop where
  config : t.config = s.config
  queue : t.queue = (s.queue ++ ds.map Prod.snd).rtake s.config.Q

theorem queuesNewest_kept (s : State) (total : Nat) :
    KeptWithEmissions total (QueuesNewest s) where
  skip h _ _ := ⟨h.config, h.queue⟩
  emit {t ds d adv} h _ _ := by
    have hlength : t.queue.length ≤ t.config.Q := by
      rw [h.queue, h.config, List.rtake, List.length_drop]
      omega
    refine ⟨(t.enqueue_config d).trans h.config, ?_⟩
    calc (t.enqueue d).queue
        = (t.queue ++ [d]).rtake s.config.Q := by
          rw [State.enqueue_queue_eq_rtake d hlength, h.config]
      _ = (s.queue ++ ds.map Prod.snd ++ [d]).rtake s.config.Q := by
          rw [h.queue, rtake_append_rtake]
      _ = (s.queue ++ (ds ++ [(total - t.available, d)]).map Prod.snd).rtake s.config.Q := by
          rw [List.map_append, List.append_assoc]
          rfl

/-- Settles O24: the store leaves the queue alone, and the pass keeps its newest descriptors. -/
theorem pushKeepsTheNewestDescriptors : Obligations.PushKeepsTheNewestDescriptors := by
  unfold Obligations.PushKeepsTheNewestDescriptors
  intro b s hlength
  have hstart : QueuesNewest s (s.ringPush b) [] := by
    refine ⟨s.ringPush_config b, ?_⟩
    rw [State.ringPush_queue, List.map_nil, List.append_nil, List.rtake,
      Nat.sub_eq_zero_of_le hlength, List.drop_zero]
  refine ⟨s.push b, rfl, ?_⟩
  rw [State.push_queue, ((queuesNewest_kept s _).scanPass hstart).queue, List.rtake,
    List.length_append, List.length_map]

end Sys2Proof.Machine
end

section
/-! SUPPORT. A stream in which nothing starts a message (`42_frame_scanner.md` R170;
`60_exceptions.md` R242). -/

namespace Sys2Proof.Machine

/-- The byte starts no candidate of either protocol. -/
def StartsNothing (b : Byte) : Prop := b ≠ rtcmPreamble ∧ isNmeaStart b = false

/-- No live byte starts a candidate. -/
def State.Unmarked (s : State) : Prop :=
  ∀ k, k < s.available → StartsNothing (s.byteAt s.readPos k)

theorem State.Unmarked.headVerdict {s : State} (h : s.Unmarked) (hlive : 1 ≤ s.available) :
    s.headVerdict = .skip := by
  obtain ⟨hpreamble, hstart⟩ := h 0 hlive
  rw [State.byteAt_zero] at hpreamble hstart
  rw [State.headVerdict, State.classify, if_neg hpreamble, if_neg (by simp [hstart])]

theorem State.Unmarked.advanceRead {s : State} (h : s.Unmarked) (n : Nat) :
    (s.advanceRead n).Unmarked := by
  intro k (hk : k < s.available - n)
  have hbyte : (s.advanceRead n).byteAt (s.addMod s.readPos n) k = s.byteAt s.readPos (n + k) :=
    (State.byteAt_congr rfl rfl _ k).trans (s.byteAt_addMod _ n k)
  exact hbyte ▸ h (n + k) (by omega)

/-- What is live after a store was live before, or is the stored byte. -/
theorem State.Unmarked.ringPush {s : State} {b : Byte} (h : s.Unmarked) (hring : RingOk s)
    (hb : StartsNothing b) : (s.ringPush b).Unmarked := by
  obtain ⟨hwriteRange, _, _, hwrite⟩ := hring
  intro k hk
  obtain ⟨j, hj, e⟩ := State.ringPush_live hk
  rw [State.byteAt, e, State.readByte_ringPush, State.addMod_mod, Nat.mod_eq_of_lt hwriteRange]
  split
  next => exact hb
  next hne =>
    refine h j (Nat.lt_of_le_of_ne hj ?_)
    rintro rfl
    exact hne hwrite.symm

/-- A turn over unmarked bytes skips one: nothing is queued, and five bytes are never taken. -/
theorem unmarked_keptByTurn (q : List Descriptor) (n : Nat) :
    KeptByTurn fun t => t.Unmarked ∧ t.queue = q ∧ min t.available 5 = n where
  skip {t} h hsix _ := by
    obtain ⟨hmarks, hqueue, hcount⟩ := h
    refine ⟨hmarks.advanceRead 1, hqueue, ?_⟩
    change min (t.available - 1) 5 = n
    omega
  emit h hsix hv := by
    have hskip := h.1.headVerdict (by omega)
    cases hskip.symm.trans hv

/-- A pass over unmarked bytes leaves at most five of them live, and the queue alone. -/
theorem State.Unmarked.scanPass {s : State} (h : s.Unmarked) :
    s.scanPass.Unmarked ∧ s.scanPass.queue = s.queue ∧
      s.scanPass.available = min s.available 5 := by
  obtain ⟨⟨hmarks, hqueue, hcount⟩, hrest⟩ :=
    (unmarked_keptByTurn s.queue (min s.available 5)).scanPass ⟨h, rfl, rfl⟩
  refine ⟨hmarks, hqueue, ?_⟩
  have hfew : s.scanPass.available < 6 := by
    by_contra hsix
    have hskip := hmarks.headVerdict (by omega)
    cases hskip.symm.trans (hrest.resolve_left hsix)
  omega

/-- A run of PUSHes of bytes that start nothing, while at most five bytes are live. -/
theorem State.Unmarked.pushAll {s : State} {bytes : List Byte} (h : s.Unmarked) (hring : RingOk s)
    (hfew : s.available ≤ 5) (hbytes : ∀ b ∈ bytes, StartsNothing b) :
    (s.pushAll bytes).queue = s.queue ∧
      (s.pushAll bytes).available = min (s.available + bytes.length) (min 5 s.config.N) := by
  induction bytes generalizing s with
  | nil =>
    obtain ⟨_, _, hcapacity, _⟩ := hring
    exact ⟨rfl, by simp only [State.pushAll_nil, List.length_nil]; omega⟩
  | cons b bytes ih =>
    obtain ⟨hb, hrest⟩ := List.forall_mem_cons.mp hbytes
    obtain ⟨hmarks, hqueue, hcount⟩ := (h.ringPush hring hb).scanPass
    have hring' : RingOk (s.push b) := (hring.ringPush b).scanPass
    have hcount' : (s.push b).available = min (s.ringPush b).available 5 := hcount
    obtain ⟨hqueueAll, hcountAll⟩ := ih (s := s.push b) hmarks hring' (by omega) hrest
    obtain ⟨_, _, hcapacity, _⟩ := hring
    refine ⟨?_, ?_⟩
    · rw [State.pushAll_cons, hqueueAll, State.push_queue, hqueue, State.ringPush_queue]
    · rw [State.pushAll_cons, hcountAll, hcount', State.push_config, State.ringPush_available,
        List.length_cons]
      split <;> omega

/-- Settles O30: with no live byte none is marked, and the run of PUSHes keeps it so. -/
theorem markerFreeStreamMakesNoMessage : Obligations.MarkerFreeStreamMakesNoMessage := by
  unfold Obligations.MarkerFreeStreamMakesNoMessage
  intro s bytes hring hempty hbytes
  have hmarks : s.Unmarked := fun k hk => by omega
  obtain ⟨hqueue, hcount⟩ := hmarks.pushAll hring (by omega) hbytes
  exact ⟨s.pushAll bytes, rfl, hqueue, by rw [hcount, hempty, Nat.zero_add]⟩

end Sys2Proof.Machine
end

section
/-! SUPPORT. The micro-states of a pass (`42_frame_scanner.md` R175) against SCAN_PASS. -/

namespace Sys2Proof.Machine

/-- The micro-state machine is at `m'` after at most `bound` micro-states from `m`. -/
def ReachesWithin (bound : Nat) (m m' : MicroState) : Prop :=
  ∃ n, n ≤ bound ∧ microRun n m = m'

theorem microRun_add (a b : Nat) (m : MicroState) :
    microRun (a + b) m = microRun b (microRun a m) := by
  induction a generalizing m with
  | zero => rw [Nat.zero_add]; rfl
  | succ a ih =>
    rw [Nat.succ_add]
    exact ih (microStep m)

namespace ReachesWithin
variable {m m' m'' : MicroState} {bound bound' : Nat}

theorem trans (h : ReachesWithin bound m m') (h' : ReachesWithin bound' m' m'') :
    ReachesWithin (bound + bound') m m'' := by
  obtain ⟨a, ha, rfl⟩ := h
  obtain ⟨b, hb, rfl⟩ := h'
  exact ⟨a + b, Nat.add_le_add ha hb, microRun_add a b m⟩

theorem mono (h : ReachesWithin bound m m') (hle : bound ≤ bound') :
    ReachesWithin bound' m m' :=
  h.imp fun _ => And.imp_left (Nat.le_trans · hle)

theorem step (m : MicroState) : ReachesWithin 1 m (microStep m) := ⟨1, Nat.le_refl 1, rfl⟩

end ReachesWithin

/-- TEST and the detector it calls lead where the verdict on the position says. -/
theorem reachesWithin_verdictPhase (s : State) (pos : Nat) {rem : Nat} (hsix : ¬rem < 6) :
    ReachesWithin 2 ⟨.test, pos, rem, s⟩ ⟨verdictPhase (s.classify pos rem), pos, rem, s⟩ := by
  by_cases hpreamble : s.readByte pos = rtcmPreamble
  · exact ⟨2, Nat.le_refl 2, by simp [microRun, microStep, State.classify, hsix, hpreamble]⟩
  · by_cases hstart : isNmeaStart (s.readByte pos) = true
    · exact ⟨2, Nat.le_refl 2,
        by simp [microRun, microStep, State.classify, hsix, hpreamble, hstart]⟩
    · exact ⟨1, by decide,
        by simp [microRun, microStep, State.classify, verdictPhase, hsix, hpreamble, hstart]⟩

/-- The commit that ends the micro-states of a pass. -/
theorem reachesWithin_done (s : State) (pos rem : Nat) :
    ReachesWithin 1 ⟨.commit, pos, rem, s⟩ ⟨.done, pos, rem, s.commit pos rem⟩ := .step _

/-- Four micro-states for each turn of the scan loop, and three to stop and commit. -/
theorem reachesWithin_scanLoop {fuel : Nat} {s : State} {pos rem : Nat} (hfuel : rem ≤ fuel) :
    ∃ t p r, scanLoop fuel s pos rem = (t, p, r) ∧
      ReachesWithin (4 * rem + 3) ⟨.test, pos, rem, s⟩ ⟨.done, p, r, t.commit p r⟩ := by
  induction fuel generalizing s pos rem with
  | zero =>
    obtain rfl : rem = 0 := Nat.le_zero.mp hfuel
    exact ⟨s, pos, 0, rfl, 2, by omega, rfl⟩
  | succ fuel ih =>
    rw [scanLoop_succ]
    by_cases hfew : rem < 6
    · refine ⟨s, pos, rem, if_pos hfew, 2, by omega, ?_⟩
      simp [microRun, microStep, hfew]
    · have hverdict := reachesWithin_verdictPhase s pos hfew
      rw [if_neg hfew]
      cases hv : s.classify pos rem with
      | incomplete =>
        rw [hv] at hverdict
        exact ⟨s, pos, rem, rfl, (hverdict.trans (reachesWithin_done s pos rem)).mono (by omega)⟩
      | skip =>
        rw [hv] at hverdict
        obtain ⟨t, p, r, e, hrun⟩ := ih (s := s) (pos := s.addMod pos 1) (rem := rem - 1) (by omega)
        exact ⟨t, p, r, e, ((hverdict.trans (.step _)).trans hrun).mono (by omega)⟩
      | emit d adv =>
        rw [hv] at hverdict
        obtain ⟨_, _, hadv, _⟩ := State.classify_emit (by omega) hv
        obtain ⟨t, p, r, e, hrun⟩ :=
          ih (s := s.enqueue d) (pos := s.addMod pos adv) (rem := rem - adv) (by omega)
        have hturn : ReachesWithin 2 ⟨.emit d adv, pos, rem, s⟩
            ⟨.test, s.addMod pos adv, rem - adv, s.enqueue d⟩ :=
          ⟨2, Nat.le_refl 2, by simp [microRun, microStep, State.addMod]⟩
        exact ⟨t, p, r, e, ((hverdict.trans hturn).trans hrun).mono (by omega)⟩

/-- Settles O56: SEED loads the locals of the pass, and the loop's micro-states do the rest. -/
theorem microStatesRefineThePass : Obligations.MicroStatesRefineThePass := by
  unfold Obligations.MicroStatesRefineThePass
  intro s pos rem
  obtain ⟨t, p, r, e, hrun⟩ :=
    reachesWithin_scanLoop (s := s) (pos := s.readPos) (Nat.le_refl s.available)
  have hseed : ReachesWithin 1 ⟨.seed, pos, rem, s⟩ ⟨.test, s.readPos, s.available, s⟩ := .step _
  obtain ⟨n, hn, hdone⟩ := hseed.trans hrun
  refine ⟨n, by omega, by rw [hdone], ?_⟩
  rw [hdone, State.scanPass, e]

end Sys2Proof.Machine
end

section
/-! SUPPORT. The message queue operations run on their own (`43_message_queue.md` R190 to R196). -/

namespace Sys2Proof.Machine

/-! ## Q_ENQUEUE (R190) -/

theorem exec_qEnqueue_of_lt {s : State} {d : Descriptor} (h : d.start < s.config.N) :
    exec (.qEnqueue d) s = .next (s.enqueue d) :=
  if_pos h

theorem State.enqueue_queue_of_full {s : State} (d : Descriptor)
    (h : s.queue.length = s.config.Q) : (s.enqueue d).queue = s.queue.tail ++ [d] := by
  rw [State.enqueue_queue, if_pos h]

theorem State.enqueue_queue_of_not_full {s : State} (d : Descriptor)
    (h : s.queue.length ≠ s.config.Q) : (s.enqueue d).queue = s.queue ++ [d] := by
  rw [State.enqueue_queue, if_neg h]

/-- Settles O57: a start in range passes the guard, and the queue is that of the two cases. -/
theorem enqueueEvictsTheOldestWhenFull : Obligations.EnqueueEvictsTheOldestWhenFull := by
  unfold Obligations.EnqueueEvictsTheOldestWhenFull
  intro d s hstart
  refine ⟨s.enqueue d, exec_qEnqueue_of_lt hstart, ?_, State.enqueue_queue_of_full d,
    State.enqueue_queue_of_not_full d, State.length_enqueue_le d⟩
  rw [State.enqueue_eq]
  rfl

/-! ## Q_EVICT (R192) -/

theorem exec_qEvict_of_cons {s : State} {d : Descriptor} {rest : List Descriptor}
    (h : s.queue = d :: rest) : exec .qEvict s = .next (s.setQueue rest) := by
  have hguard : 1 ≤ s.queue.length := by simp [h]
  calc exec .qEvict s = .next (s.setQueue s.queue.tail) := if_pos hguard
    _ = .next (s.setQueue rest) := by rw [h, List.tail_cons]

theorem exec_qEvict_of_nil {s : State} (h : s.queue = []) :
    exec .qEvict s = .refused .evictFromEmptyQueue :=
  if_neg (by simp [h])

/-- Settles O58: the guard asks for the descriptor that is dropped. -/
theorem evictDropsTheOldest : Obligations.EvictDropsTheOldest := by
  unfold Obligations.EvictDropsTheOldest
  exact fun _ => ⟨fun _ _ => exec_qEvict_of_cons, exec_qEvict_of_nil⟩

/-! ## Q_DEQUEUE (R194, R35) -/

theorem State.dequeue_of_nil {s : State} (h : s.queue = []) : s.dequeue = (sentinel, s) := by
  rw [State.dequeue, h]

theorem State.dequeue_of_cons {s : State} {d : Descriptor} {rest : List Descriptor}
    (h : s.queue = d :: rest) : s.dequeue = (s.materialise d, s.setQueue rest) := by
  rw [State.dequeue, h]

theorem exec_qDequeue (s : State) :
    exec .qDequeue s = .next (s.dequeue.2.returning (.message s.dequeue.1)) := rfl

/-- Settles O59: the data of a materialised message is the descriptor's span, byte by byte. -/
theorem dequeueMaterialisesTheOldest : Obligations.DequeueMaterialisesTheOldest := by
  unfold Obligations.DequeueMaterialisesTheOldest
  refine fun s => ⟨fun hempty => ?_, fun d rest hqueue => ⟨s.span d.start d.length, ?_,
    s.length_span d.start d.length, s.getElem_span d.start d.length⟩⟩
  · rw [exec_qDequeue, State.dequeue_of_nil hempty]
    rfl
  · rw [exec_qDequeue, State.dequeue_of_cons hqueue]
    rfl

/-! ## Q_HAS (R196) -/

/-- A message is ready exactly when the queue is non-empty. -/
theorem State.msgReady_eq (s : State) : s.msgReady = decide (s.queue ≠ []) :=
  decide_eq_decide.mpr List.length_pos_iff

/-- Settles O60: the bit returned is the test that HAS_MESSAGE makes. -/
theorem qHasTestsTheQueue : Obligations.QHasTestsTheQueue := by
  unfold Obligations.QHasTestsTheQueue
  intro s
  rw [← State.msgReady_eq]
  rfl

end Sys2Proof.Machine
end

section
/-! SUPPORT. The four commands of the host's interface, each as its equation on the whole state
(`44_interface.md` R210 to R216). -/

namespace Sys2Proof.Machine

/-! ## NEXT_MESSAGE (R214) -/

theorem exec_nextMessage (x : Byte) (s : State) :
    exec (.nextMessage x) s = .next s.nextMessage := rfl

theorem headerWord_sentinel : headerWord sentinel = 0x140000#24 := by decide

theorem State.nextMessage_of_nil {s : State} (h : s.queue = []) :
    s.nextMessage = s.respond (.message 0x140000#24 []) := by
  rw [State.nextMessage, State.dequeue_of_nil h, headerWord_sentinel]
  rfl

theorem State.nextMessage_of_cons {s : State} {d : Descriptor} {rest : List Descriptor}
    (h : s.queue = d :: rest) :
    s.nextMessage = (s.setQueue rest).respond
      (.message (headerWord (s.materialise d)) (s.span d.start d.length)) := by
  rw [State.nextMessage, State.dequeue_of_cons h]
  rfl

/-- The host reads the fields of a descriptor within its ranges back from its header. -/
theorem State.decodeHeader_materialise (s : State) {d : Descriptor} (h : d.wf = true) :
    decodeHeader (headerWord (s.materialise d)) = .ok ⟨d.protocol, d.valid, d.reason, d.length⟩ :=
  decodeHeader_headerWord (length_le_of_descriptor_wf h)

/-- Settles O21: the two cases of Q_DEQUEUE, whose data is the descriptor's span byte by byte. -/
theorem nextMessageDeliversTheOldest : Obligations.NextMessageDeliversTheOldest := by
  unfold Obligations.NextMessageDeliversTheOldest
  refine fun x s => ⟨fun hempty => ?_, fun d rest hqueue =>
    ⟨headerWord (s.materialise d), s.span d.start d.length, ?_, s.length_span d.start d.length,
      s.getElem_span d.start d.length, fun hwf => ⟨rfl, s.decodeHeader_materialise hwf⟩⟩⟩
  · rw [exec_nextMessage, State.nextMessage_of_nil hempty]
    rfl
  · rw [exec_nextMessage, State.nextMessage_of_cons hqueue]
    rfl

/-! ## PUSH (R210) -/

theorem exec_push (b : Byte) (s : State) : exec (.push b) s = .next (s.push b) := rfl

/-- The response of PUSH tells of the queue that it leaves. -/
theorem State.push_responses_eq (s : State) (b : Byte) :
    (s.push b).responses = s.responses ++ [.msgReady (decide ((s.push b).queue ≠ []))] := by
  rw [State.push_responses, State.msgReady_eq, State.push_queue]

/-- Settles O22: the store is RB_PUSH's, and neither the pass nor the response changes another of
these fields. -/
theorem pushStoresOneByteAndResponds : Obligations.PushStoresOneByteAndResponds := by
  unfold Obligations.PushStoresOneByteAndResponds
  intro b s
  have hstored : (s.push b).readByte s.writePos = b := by
    rw [State.readByte_push, if_pos rfl]
  have hothers : ∀ a, a % s.config.N ≠ s.writePos % s.config.N →
      (s.push b).readByte a = s.readByte a := by
    intro a ha
    rw [State.readByte_push, if_neg ha]
  exact ⟨s.push b, exec_push b s, hstored, hothers, s.push_writePos b, s.push_responses_eq b,
    s.push_config b, s.push_inbox b, s.push_returned b⟩

/-! ## RESET (R216) -/

theorem exec_reset (x : Byte) (s : State) : exec (.reset x) s = .next s.clear := rfl

theorem State.clear_eq (s : State) :
    s.clear = { s with queue := [], writePos := 0, readPos := 0, available := 0 } := rfl

theorem State.clear_clear (s : State) : s.clear.clear = s.clear := by
  rw [s.clear.clear_eq, s.clear_eq]

/-- Settles O19: RESET clears the state, and clearing a cleared state leaves it. -/
theorem resetGivesTheEmptyState : Obligations.ResetGivesTheEmptyState := by
  unfold Obligations.ResetGivesTheEmptyState
  intro x y s
  refine ⟨s.clear, exec_reset x s, s.clear_eq, ?_⟩
  rw [exec_reset, State.clear_clear]

/-! ## HAS_MESSAGE (R212) -/

theorem exec_hasMessage (x : Byte) (s : State) :
    exec (.hasMessage x) s = .next s.respondReady := rfl

theorem State.respondReady_eq (s : State) :
    s.respondReady = s.respond (.msgReady (decide (s.queue ≠ []))) := by
  rw [State.respondReady, State.msgReady_eq]

/-- Settles O20: the response is the test of the queue, and no other field is written. -/
theorem hasMessageOnlyResponds : Obligations.HasMessageOnlyResponds := by
  unfold Obligations.HasMessageOnlyResponds
  intro x s
  rw [exec_hasMessage, State.respondReady_eq]
  rfl

end Sys2Proof.Machine
end

section
/-! SUPPORT. Completion (`60_exceptions.md` R240, R250): none of the commands a word can decode to
faults or is refused, and none of them touches the stream. -/

namespace Sys2Proof.Machine

/-- A command leaves the rest of the stream for the steps after it (R70). -/
theorem CommandEffect.inbox {s t : State} (h : CommandEffect s t) : t.inbox = s.inbox := by
  cases h with
  | push b => exact s.push_inbox b
  | hasMessage => exact s.respond_inbox _
  | nextMessage => rw [s.nextMessage_eq, State.respond_inbox, State.setQueue_inbox]
  | reset => rw [s.clear_eq]

/-- Decoding is total (R74), and each of the four commands it selects answers a next state. -/
theorem exec_decode_completes (w : CommandWord) (s : State) :
    ∃ t, exec (decode w) s = .next t := by
  rcases decode_cases w with hw | hw | hw | hw <;> rw [hw]
  · exact ⟨_, exec_push _ s⟩
  · exact ⟨_, exec_hasMessage _ s⟩
  · exact ⟨_, exec_nextMessage _ s⟩
  · exact ⟨_, exec_reset _ s⟩

/-- Settles O8: the step runs the decoded command on the state without the word, and that command
completes and keeps the rest of the stream. -/
theorem everyCommandCompletes : Obligations.EveryCommandCompletes := by
  unfold Obligations.EveryCommandCompletes
  intro s w rest h
  obtain ⟨t, hexec⟩ := exec_decode_completes w (s.setInbox rest)
  have hinbox : t.inbox = rest :=
    (exec_decode_effect hexec).inbox.trans (State.setInbox_inbox s rest)
  exact ⟨t, (step_of_command h).trans hexec, hinbox⟩

end Sys2Proof.Machine
end

section
/-! SUPPORT. The state at power-on (`70_reset_and_hazards.md` R260, R262; `10_state.md` R41). -/

namespace Sys2Proof.Machine

/-- The empty state needs nothing of the parameters to be safe. -/
theorem safeState_powerOn (p : Config.Params) : SafeState (State.powerOn p) :=
  ⟨powerOn_ring_wf p, RingOk.clear (State.powerOn p),
    ⟨Nat.zero_le _, fun _ hd => absurd hd List.not_mem_nil⟩, ReadsWritten.clear (State.powerOn p),
    .inl (Nat.zero_lt_succ 5), fun _ hr => absurd hr List.not_mem_nil⟩

/-- No byte is written yet. -/
theorem readByte_powerOn (p : Config.Params) (a : Nat) :
    (State.powerOn p).readByte a = Config.powerOnByte (a % p.N) := rfl

/-- Settles O13: the fields by the definition, safety and the first step by their lemmas. -/
theorem powerOnState : Obligations.PowerOnState := by
  unfold Obligations.PowerOnState
  exact fun p => ⟨rfl, rfl, rfl, rfl, readByte_powerOn p, safeState_powerOn p,
    fun w => step_of_command (s := (State.powerOn p).setInbox [.command w]) rfl⟩

end Sys2Proof.Machine
end

section
/-! SUPPORT. The hazards of the ring (`70_reset_and_hazards.md` R266, R270): a ring too small to
frame, and where the write cursor stands against a span that a pass framed. -/

namespace Sys2Proof.Machine
variable {s : State}

/-! ## A ring of fewer than 6 bytes (R266) -/

/-- RB_PUSH never makes more bytes live than the ring holds. -/
theorem State.ringPush_available_le (b : Byte) (h : s.available ≤ s.config.N) :
    (s.ringPush b).available ≤ s.config.N := by
  rw [State.ringPush_available]
  split <;> omega

/-- Every pass rests at once, for want of live bytes. -/
theorem State.pushAll_queue_of_small (bytes : List Byte) (hsmall : s.config.N < 6)
    (h : s.available ≤ s.config.N) : (s.pushAll bytes).queue = s.queue := by
  induction bytes generalizing s with
  | nil => rfl
  | cons b bytes ih =>
    have hlive := State.ringPush_available_le b h
    have hrest : (s.ringPush b).Resting := .inl (by omega)
    have hnext : (s.push b).available ≤ (s.push b).config.N := by
      rw [State.push_available, hrest.scanPass_eq, State.push_config]
      exact hlive
    rw [State.pushAll_cons, ih (by rwa [State.push_config]) hnext, State.push_queue,
      hrest.scanPass_eq, State.ringPush_queue]

/-- Settles O31: no pass of the run has six live bytes to look at. -/
theorem smallRingFramesNothing : Obligations.SmallRingFramesNothing := by
  unfold Obligations.SmallRingFramesNothing
  exact fun s bytes hsmall h => ⟨s.pushAll bytes, rfl, State.pushAll_queue_of_small bytes hsmall h⟩

/-! ## The horizon of a framed span (R270) -/

/-- From the start of a span, the write cursor is as far as the span, the gap to the read cursor and
the live bytes together. -/
theorem RingOk.writePos_eq_addMod {start length : Nat} (h : RingOk s) :
    s.writePos = s.addMod start
      (length + s.distMod (s.addMod start length) s.readPos + s.available) := by
  obtain ⟨_, hread, _, hwrite⟩ := h
  rw [← State.addMod_addMod, ← State.addMod_addMod, State.addMod_distMod _ hread, ← hwrite]

/-- Bytes stored `offset` places after the start of a span, and no farther than once around the
ring, miss it. -/
theorem State.span_pushAll_of_offset {start length offset : Nat} {bytes : List Byte}
    (hwrite : s.writePos = s.addMod start offset) (hlength : length ≤ offset)
    (hfits : offset + bytes.length ≤ s.config.N) :
    (s.pushAll bytes).span start length = s.span start length := by
  refine List.map_congr_left fun j hmem => ?_
  have hj : j < length := List.mem_range.mp hmem
  have hmiss : ∀ k, k < bytes.length →
      s.addMod start j % s.config.N ≠ s.addMod s.writePos k := by
    intro k hk heq
    rw [State.addMod_mod, hwrite, State.addMod_addMod] at heq
    have hsame := State.addMod_inj (by omega) (by omega) heq
    omega
  rw [State.byteAt, State.addMod_congr (s.pushAll_config bytes), State.readByte_pushAll_of_ne hmiss,
    State.byteAt]

/-- Once around the ring the write cursor is back at the index and stores the next byte there. -/
theorem State.readByte_pushAll_around {start offset : Nat} {bytes : List Byte}
    (hrange : s.writePos < s.config.N) (hwrite : s.writePos = s.addMod start offset)
    (haround : offset + bytes.length = s.config.N) (b : Byte) :
    (s.pushAll (bytes ++ [b])).readByte start = b := by
  have hback : (s.pushAll bytes).writePos = start % s.config.N := by
    rw [State.pushAll_writePos bytes hrange, hwrite, State.addMod_addMod, haround, State.addMod,
      Nat.add_mod_right]
  rw [State.pushAll_append, State.pushAll_cons, State.pushAll_nil, State.readByte_push, hback,
    State.pushAll_config, Nat.mod_mod, if_pos rfl]

/-- Settles O32: the offset of the write cursor from the span's start decides both clauses. -/
theorem staleDataHorizon : Obligations.StaleDataHorizon := by
  unfold Obligations.StaleDataHorizon
  intro s start length bytes hring _ hroom
  have hwrite := hring.writePos_eq_addMod (start := start) (length := length)
  obtain ⟨hrange, _⟩ := hring
  refine ⟨fun hcount => ⟨s.pushAll bytes, rfl, ?_⟩,
    fun hcount _ b => ⟨s.pushAll (bytes ++ [b]), rfl, ?_⟩⟩
  · exact State.span_pushAll_of_offset hwrite (by omega) (by omega)
  · exact State.readByte_pushAll_around hrange hwrite (by omega) b

end Sys2Proof.Machine
end

section
/-! SUPPORT. Readable bytes stay written through every command (`70_reset_and_hazards.md` R261). -/

namespace Sys2Proof.Machine

theorem ReadsWritten.nextMessage {s : State} (h : ReadsWritten s) : ReadsWritten s.nextMessage := by
  rw [State.nextMessage_eq]
  exact h.tail

theorem ReadsWritten.command {s t : State} (h : ReadsWritten s) (hring : RingOk s)
    (heffect : CommandEffect s t) : ReadsWritten t := by
  cases heffect with
  | push b => exact (h.ringPush hring b).scanPass
  | hasMessage => exact h
  | nextMessage => exact h.nextMessage
  | reset => exact ReadsWritten.clear s

/-- Settles O15: each command keeps the readable bytes written, and taking its word off the stream
does. -/
theorem stepKeepsReadableBytesWritten : Obligations.StepKeepsReadableBytesWritten := by
  unfold Obligations.StepKeepsReadableBytesWritten
  intro s t hring hreads hstep
  rcases step_next_cases hstep with rfl | ⟨rest, heffect⟩
  · exact hreads
  · have htaken : ReadsWritten (s.setInbox rest) := hreads
    exact htaken.command hring heffect

end Sys2Proof.Machine
end

section
/-! SUPPORT. A verdict depends on the live bytes at its position alone: two states with the same
`rem` bytes from `pos` on classify it alike (`42_frame_scanner.md` R150, R171). -/

namespace Sys2Proof.Machine
variable {s t : State} {p n : Nat}

theorem State.span_eq_iff :
    s.span p n = t.span p n ↔ ∀ k < n, s.byteAt p k = t.byteAt p k := by
  simp [State.span]

theorem State.span_eq_of_le {m : Nat} (h : s.span p n = t.span p n) (hm : m ≤ n) :
    s.span p m = t.span p m :=
  State.span_eq_iff.mpr fun k hk => State.span_eq_iff.mp h k (by omega)

/-! ## RTCM3 -/

/-- The CRC check reads the frame that its length field announces. -/
theorem State.rtcm3Validate_of_span_eq (h : s.span p n = t.span p n)
    (hfits : s.crcSpanLength p + 3 ≤ n) : s.rtcm3Validate p = t.rtcm3Validate p := by
  have hbyte := State.span_eq_iff.mp h
  have hlen : t.crcSpanLength p = s.crcSpanLength p := by
    have hthree : 3 ≤ s.crcSpanLength p := Nat.le_add_left 3 _
    rw [State.crcSpanLength, State.crcSpanLength, hbyte 1 (by omega), hbyte 2 (by omega)]
  have hcrc : s.crc24q p (s.crcSpanLength p) = t.crc24q p (s.crcSpanLength p) :=
    congrArg crcOfBytes (State.span_eq_of_le h (by omega))
  have hreceived : s.receivedCrc p (s.crcSpanLength p) = t.receivedCrc p (s.crcSpanLength p) := by
    rw [State.receivedCrc, State.receivedCrc, hbyte _ (by omega), hbyte _ (by omega),
      hbyte _ (by omega)]
  rw [Bool.eq_iff_iff, State.rtcm3Validate_iff, State.rtcm3Validate_iff, hlen, hcrc, hreceived]

theorem State.rtcm3Detect_of_span_eq (h : s.span p n = t.span p n) (hsix : 6 ≤ n) :
    s.rtcm3Detect p n = t.rtcm3Detect p n := by
  have hbyte := State.span_eq_iff.mp h
  simp only [State.rtcm3Detect, ← hbyte 1 (by omega), ← hbyte 2 (by omega)]
  split
  next => rfl
  next hmax =>
    split
    next => rfl
    next hfits =>
      have hframe : s.crcSpanLength p + 3 ≤ n := by
        rw [State.crcSpanLength, validationLength_of_detectionLength_le (Nat.not_lt.mp hmax)]
        exact Nat.not_lt.mp hfits
      rw [State.rtcm3Validate_of_span_eq h hframe]

/-! ## NMEA -/

/-- The search along a line does not look beyond the live bytes. -/
theorem State.firstLineStop_of_span_eq (h : s.span p n = t.span p n) :
    s.firstLineStop p n = t.firstLineStop p n := by
  have hbyte := State.span_eq_iff.mp h
  cases ht : t.firstLineStop p n with
  | none =>
    refine State.firstLineStop_eq_none fun k hone hk => ?_
    rw [hbyte k (by omega)]
    exact State.firstLineStop_none ht hone (by omega) (by omega)
  | some k =>
    obtain ⟨hone, hk, hmax, hstop, hfirst⟩ := State.firstLineStop_some ht
    refine State.firstLineStop_eq_some hone (by omega) ?_ fun j h₁ hj => ?_
    · rwa [hbyte k hk]
    · rw [hbyte j (by omega)]
      exact hfirst j h₁ hj

theorem State.ChecksumAt.of_span_eq {star : Nat} {h1 h2 : BitVec 4} (hc : s.ChecksumAt p star h1 h2)
    (h : s.span p n = t.span p n) (hroom : star + 2 < n) : t.ChecksumAt p star h1 h2 := by
  have hbyte := State.span_eq_iff.mp h
  exact
    { one_le := hc.one_le
      isStar := hbyte star (by omega) ▸ hc.isStar
      first := fun k hone hk => hbyte k (by omega) ▸ hc.first k hone hk
      high := hbyte (star + 1) (by omega) ▸ hc.high
      low := hbyte (star + 2) hroom ▸ hc.low
      xor_eq := State.span_eq_of_le h (by omega : star ≤ n) ▸ hc.xor_eq }

theorem State.nmeaValidate_of_span_eq (h : s.span p n = t.span p n) (htwo : 2 ≤ n) :
    s.nmeaValidate p n = t.nmeaValidate p n := by
  have transfer : ∀ {u v : State}, u.span p n = v.span p n → u.nmeaValidate p n = true →
      v.nmeaValidate p n = true := by
    intro u v huv hu
    obtain ⟨star, h1, h2, hroom, hc⟩ := (State.nmeaValidate_iff htwo).mp hu
    exact (State.nmeaValidate_iff htwo).mpr
      ⟨star, h1, h2, hroom, hc.of_span_eq huv (by omega)⟩
  exact Bool.eq_iff_iff.mpr ⟨transfer h, transfer h.symm⟩

theorem State.nmeaDetect_of_span_eq (h : s.span p n = t.span p n) :
    s.nmeaDetect p n = t.nmeaDetect p n := by
  have hstop := State.firstLineStop_of_span_eq h
  cases hs : s.firstLineStop p n with
  | none => rw [State.nmeaDetect_of_none hs, State.nmeaDetect_of_none (hstop ▸ hs)]
  | some k =>
    obtain ⟨hone, hk, _⟩ := State.firstLineStop_some hs
    simp only [State.nmeaDetect, ← hstop, hs, ← State.span_eq_iff.mp h k hk,
      State.nmeaValidate_of_span_eq (State.span_eq_of_le h hk) (by omega)]

/-! ## The dispatch -/

theorem State.classify_of_span_eq (h : s.span p n = t.span p n) (hsix : 6 ≤ n) :
    s.classify p n = t.classify p n := by
  have hhead := State.span_eq_iff.mp h 0 (by omega)
  rw [State.byteAt_zero, State.byteAt_zero] at hhead
  rw [State.classify, State.classify, hhead, State.rtcm3Detect_of_span_eq h hsix,
    State.nmeaDetect_of_span_eq h]

end Sys2Proof.Machine
end

section
/-! SUPPORT. Two states that differ in unwritten bytes alone (`70_reset_and_hazards.md` R260, R261):
every command takes them to two such states, since it reads written bytes only. -/

namespace Sys2Proof.Machine

/-- Storing the same byte in both lists keeps every written byte of the first in the second. -/
theorem Memory.store_extends {m m' : Memory} (h : ∀ a b, m.find a = some b → m'.find a = some b)
    (i : Nat) (v : Byte) :
    ∀ a b, (m.store i v).find a = some b → (m'.store i v).find a = some b := by
  intro a b hb
  rw [Memory.find_store] at hb ⊢
  split at hb
  next hsame => rwa [if_pos hsame]
  next hne => rw [if_neg hne, h a b hb]

/-- RB_PUSH does not look at the bytes of the storage. -/
theorem State.setRing_ringPush (s : State) (m : Memory) (b : Byte) :
    (s.setRing m).ringPush b =
      (s.ringPush b).setRing (m.store (s.writePos % s.config.N) b) := by
  by_cases hfull : s.available = s.config.N
  · have hfull' : (s.setRing m).available = (s.setRing m).config.N := hfull
    simp only [State.ringPush, if_pos hfull, if_pos hfull']
    rfl
  · have hroom : ¬(s.setRing m).available = (s.setRing m).config.N := hfull
    simp only [State.ringPush, if_neg hfull, if_neg hroom]
    rfl

namespace SameButPowerOn
variable {s t : State}

/-! ## What the two states share -/

theorem config (h : SameButPowerOn s t) : t.config = s.config := by rw [h.1]; rfl
theorem inbox (h : SameButPowerOn s t) : t.inbox = s.inbox := by rw [h.1]; rfl
theorem queue (h : SameButPowerOn s t) : t.queue = s.queue := by rw [h.1]; rfl
theorem readPos (h : SameButPowerOn s t) : t.readPos = s.readPos := by rw [h.1]; rfl
theorem available (h : SameButPowerOn s t) : t.available = s.available := by rw [h.1]; rfl
theorem writePos (h : SameButPowerOn s t) : t.writePos = s.writePos := by rw [h.1]; rfl

theorem addMod (h : SameButPowerOn s t) (i k : Nat) : t.addMod i k = s.addMod i k :=
  State.addMod_congr h.config i k

/-- Written bytes read alike. -/
theorem span_eq (h : SameButPowerOn s t) {p n : Nat} (hw : SpanWritten s p n) :
    s.span p n = t.span p n := by
  refine State.span_eq_iff.mpr fun k hk => ?_
  obtain ⟨b, hb⟩ := Option.isSome_iff_exists.mp (hw k hk)
  simp only [State.byteAt, State.readByte, h.config, h.addMod, State.addMod_mod, hb, h.2 _ b hb]

/-! ## Updates that store nothing and read nothing -/

theorem setInbox (h : SameButPowerOn s t) (l : List HostInput) :
    SameButPowerOn (s.setInbox l) (t.setInbox l) := ⟨congrArg (State.setInbox · l) h.1, h.2⟩

theorem setQueue (h : SameButPowerOn s t) (q : List Descriptor) :
    SameButPowerOn (s.setQueue q) (t.setQueue q) := ⟨congrArg (State.setQueue · q) h.1, h.2⟩

theorem commit (h : SameButPowerOn s t) (pos rem : Nat) :
    SameButPowerOn (s.commit pos rem) (t.commit pos rem) :=
  ⟨congrArg (State.commit · pos rem) h.1, h.2⟩

theorem respond (h : SameButPowerOn s t) (r : Response) :
    SameButPowerOn (s.respond r) (t.respond r) := ⟨congrArg (State.respond · r) h.1, h.2⟩

theorem clear (h : SameButPowerOn s t) : SameButPowerOn s.clear t.clear :=
  ⟨congrArg State.clear h.1, h.2⟩

theorem enqueue (h : SameButPowerOn s t) (d : Descriptor) :
    SameButPowerOn (s.enqueue d) (t.enqueue d) := by
  rw [State.enqueue_eq, State.enqueue_eq, h.queue, h.config]
  exact h.setQueue _

theorem respondReady (h : SameButPowerOn s t) : SameButPowerOn s.respondReady t.respondReady := by
  rw [State.respondReady_eq, State.respondReady_eq, h.queue]
  exact h.respond _

/-! ## PUSH -/

/-- The byte is stored at the same index in both. -/
theorem ringPush (h : SameButPowerOn s t) (b : Byte) :
    SameButPowerOn (s.ringPush b) (t.ringPush b) := by
  have hring : (t.ringPush b).ring = t.ring.store (s.writePos % s.config.N) b := by
    rw [State.ringPush_ring, h.writePos, h.config]
  refine ⟨?_, ?_⟩
  · rw [hring, ← State.setRing_ringPush, ← h.1]
  · rw [hring, State.ringPush_ring]
    exact Memory.store_extends h.2 _ b

/-- A loop over written bytes takes the same turns in both states. -/
theorem scanLoop (h : SameButPowerOn s t) {fuel pos rem : Nat} (hw : SpanWritten s pos rem) :
    ∃ u v p r, scanLoop fuel s pos rem = (u, p, r) ∧ scanLoop fuel t pos rem = (v, p, r) ∧
      SameButPowerOn u v := by
  induction fuel generalizing s t pos rem with
  | zero => exact ⟨s, t, pos, rem, rfl, rfl, h⟩
  | succ fuel ih =>
    rw [scanLoop_succ, scanLoop_succ]
    by_cases hfew : rem < 6
    · rw [if_pos hfew, if_pos hfew]
      exact ⟨s, t, pos, rem, rfl, rfl, h⟩
    · rw [if_neg hfew, if_neg hfew, h.addMod,
        ← State.classify_of_span_eq (h.span_eq hw) (Nat.not_lt.mp hfew)]
      cases hv : s.classify pos rem with
      | incomplete => exact ⟨s, t, pos, rem, rfl, rfl, h⟩
      | skip => exact ih h (hw.drop 1)
      | emit d adv =>
        have hrest : SpanWritten (s.enqueue d) (s.addMod pos adv) (rem - adv) := by
          rw [State.enqueue_eq]
          exact hw.drop adv
        simp only [h.addMod]
        exact ih (h.enqueue d) hrest

theorem scanPass (h : SameButPowerOn s t) (hlive : SpanWritten s s.readPos s.available) :
    SameButPowerOn s.scanPass t.scanPass := by
  obtain ⟨u, v, p, r, es, et, huv⟩ := h.scanLoop (fuel := s.available) hlive
  rw [State.scanPass, State.scanPass, h.readPos, h.available, es, et]
  exact huv.commit p r

theorem push (h : SameButPowerOn s t) (hring : RingOk s) (hreads : ReadsWritten s) (b : Byte) :
    SameButPowerOn (s.push b) (t.push b) := by
  obtain ⟨hlive, _⟩ := hreads.ringPush hring b
  exact ((h.ringPush b).scanPass hlive).respondReady

/-! ## NEXT_MESSAGE -/

/-- The span of the oldest message has been written. -/
theorem nextMessage (h : SameButPowerOn s t) (hreads : ReadsWritten s) :
    SameButPowerOn s.nextMessage t.nextMessage := by
  cases hq : s.queue with
  | nil =>
    rw [State.nextMessage_of_nil hq, State.nextMessage_of_nil (h.queue.trans hq)]
    exact h.respond _
  | cons d rest =>
    have hspan : s.span d.start d.length = t.span d.start d.length :=
      h.span_eq (hreads.2 d (hq ▸ List.mem_cons_self))
    rw [State.nextMessage_of_cons hq, State.nextMessage_of_cons (h.queue.trans hq),
      State.materialise, State.materialise, hspan]
    exact (h.setQueue rest).respond _

/-! ## Every command -/

theorem exec_decode (h : SameButPowerOn s t) (hring : RingOk s) (hreads : ReadsWritten s)
    (w : CommandWord) :
    ∃ s' t', exec (decode w) s = .next s' ∧ exec (decode w) t = .next t' ∧
      SameButPowerOn s' t' := by
  rcases decode_cases w with hw | hw | hw | hw <;> rw [hw]
  · exact ⟨_, _, exec_push _ s, exec_push _ t, h.push hring hreads _⟩
  · exact ⟨_, _, exec_hasMessage _ s, exec_hasMessage _ t, h.respondReady⟩
  · exact ⟨_, _, exec_nextMessage _ s, exec_nextMessage _ t, h.nextMessage hreads⟩
  · exact ⟨_, _, exec_reset _ s, exec_reset _ t, h.clear⟩

end SameButPowerOn

/-- Settles O17: both states take the same word off the stream, and no command reads an unwritten
byte of a safe state. -/
theorem powerOnContentsAreUnobservable : Obligations.PowerOnContentsAreUnobservable := by
  unfold Obligations.PowerOnContentsAreUnobservable
  rintro s t s' ⟨_, hring, _, hreads, _⟩ hsame hstep
  rcases step_cases s with ⟨hidle, e⟩ | ⟨_, _, _, _, e⟩ | ⟨w, rest, hcommand, e⟩ <;>
    rw [e] at hstep
  · obtain rfl := Host.Outcome.next.inj hstep
    exact ⟨t, step_of_idle (hsame.inbox.trans hidle), hsame⟩
  · cases hstep
  · obtain ⟨u, t', hs, ht, hnext⟩ := (hsame.setInbox rest).exec_decode hring hreads w
    obtain rfl := Host.Outcome.next.inj (hs.symm.trans hstep)
    exact ⟨t', (step_of_command (hsame.inbox.trans hcommand)).trans ht, hnext⟩

end Sys2Proof.Machine
end
